-- ==== Sys2Proof/Word.lean ====
section
/-! DEFINITION. The word types of the machine (00_scope R7, R8; 20_memory R60). -/

namespace Sys2Proof

/-- An 8-bit value: a byte of memory, of an instruction, of a port. -/
abbrev Byte := BitVec 8

/-- A 16-bit value: a register slot, an offset, `IP`, a port number (10_state R21, R29). -/
abbrev Word := BitVec 16

/-- A 20-bit linear address. Every address is taken modulo 2^20 (20_memory R61), so a linear address is a 20-bit value. -/
abbrev Addr := BitVec 20

end Sys2Proof
end

