-- ==== Sys2Proof/Config.lean ====
section
/-! DEFINITION. What is fixed for the machine (00_scope R5, 10_state R39) and the free values: uninterpreted functions of a
draw (00_scope R13), without a body, so that nothing can be proved about which value they give. -/

namespace Sys2Proof

/-- The nine flag cells (10_state R26). -/
inductive Flag where
  | cf | pf | af | zf | sf | tf | intf | df | of
  deriving DecidableEq, Repr

/-- The linear address of the register page (00_scope R5, 10_state R25), at its default. DESIGN CHOICE: log 2. -/
def Config.regsBase : Addr := 0xF0000

/-- `SHIFT_COUNT_MASK` (00_scope R5, 45_shift_rotate R280). -/
def Config.shiftCountMask : Byte := 0x1F

/-- `TICK_VECTOR` (00_scope R5, 60_exceptions R402). -/
def Config.tickVector : Byte := 0x0A

/-- The special ports, whose reads and writes invoke `PortDevice` (10_state R30, 60_exceptions R413). -/
def Config.specialPorts : List Word :=
  [0x20, 0x40, 0x41, 0x42, 0x43, 0x60, 0x61, 0x62, 0x63, 0x64, 0x3B4, 0x3B5, 0x3D4, 0x3D5, 0x3D6, 0x3D7, 0x3D8, 0x3D9, 0x3DA]

/-- What an address that memory does not list reads as: 10_state R38 leaves those launch values open. DESIGN CHOICE: log 3. -/
def Config.unlisted : Byte := 0

/-- A flag that a rule leaves as a draw (93_implementation_defined U1 to U6), for a draw number and a flag. Log 7. -/
opaque Config.freeFlag : Nat → Flag → Bool

/-- A byte of `SCRATCH` as a program reads it (U7): draw number, 0 for the low byte or 1 for the high byte, and the byte last
stored there. Log 8. -/
opaque Config.scratchByte : Nat → Nat → Byte → Byte

/-- What a special port holds (20_memory R76, U9): draw number, the device's private state, the port, and the byte last stored there.
Log 14. -/
opaque Config.devicePort : Nat → Nat → Word → Byte → Byte

/-- What `PortDevice` leaves in a byte of memory that it declares (60_exceptions R413): draw number, the device's private state, the port
number of the access, whether it is a word, the value written (none for a read), the byte's address, and the byte before. Log 14. -/
opaque Config.deviceByte : Nat → Nat → Word → Bool → Option Word → Addr → Byte → Byte

/-- The device's private state after an access (60_exceptions R413): draw number, its state before, and the access. Log 14. -/
opaque Config.deviceNext : Nat → Nat → Word → Bool → Option Word → Nat

/-- The bytes of the clock hook's record (60_exceptions R422): draw number, byte index. Log 15. -/
opaque Config.clockByte : Nat → Nat → Byte

/-- The bytes of the millisecond counter that the clock hook stores (48_io_flags_misc R366): draw number, byte index. Log 15. -/
opaque Config.clockMsByte : Nat → Nat → Byte

/-- Where the clock hook stores the millisecond counter, at launch (00_scope R5: OPEN). Log 15. -/
opaque Config.rtcMsAddr : Addr

/-- How many bytes the millisecond counter takes, at launch (00_scope R5: OPEN). Log 15. -/
opaque Config.rtcMsLen : Nat

/-- How many bytes the host transfers on a disk read, before the bound by the length asked for (48_io_flags_misc R367). Log 16. -/
opaque Config.diskCount : Nat → Nat

/-- The bytes the host transfers on a disk read: draw number, byte index. Log 16. -/
opaque Config.diskByte : Nat → Nat → Byte

/-- The low byte of the disk hook's result (48_io_flags_misc R367, R368). Log 16. -/
opaque Config.diskResult : Nat → Byte

end Sys2Proof
end

