-- ==== Sys2Proof/Syntax.lean ====
section
/-! DEFINITION. The instructions as syntax: operand shapes (30_encoding R91 to R97, R99) and one constructor for each mnemonic
of spec/opcode_table.json, the reserved encodings of 30_encoding R104 among them. -/

namespace Sys2Proof

/-- The operand width `w` (00_scope R8): `w = 0` is a byte, `w = 1` a word. -/
inductive Width where
  | byte | word
  deriving DecidableEq, Repr

/-- The operand width in bits, `n = 8*(w+1)` (00_scope R8). -/
@[reducible] def Width.bits : Width → Nat
  | .byte => 8
  | .word => 16

/-- The operand width in bytes, `w + 1`. -/
def Width.bytes : Width → Nat
  | .byte => 1
  | .word => 2

/-- The direction bit `d` (30_encoding R99): with `d = 0` the destination is the r/m operand, with `d = 1` the register. -/
inductive Direction where
  | toRm | toReg
  deriving DecidableEq, Repr

/-- A 3-bit register number (10_state R21, R22): at `w = 1` the numbers 0 to 7 name AX CX DX BX SP BP SI DI, at `w = 0`
AL CL DL BL AH CH DH BH. -/
abbrev RegNum := Fin 8

/-- A segment register (10_state R23); `SR[0..3]`. -/
inductive SReg where
  | es | cs | ss | ds
  deriving DecidableEq, Repr

/-- The comparison mode of a repeat prefix (10_state R31, 44_string_prefix R262): 0 for REPNE, 1 for REPE. -/
inductive RepMode where
  | repne | repe
  deriving DecidableEq, Repr

/-- Where a shift of `D0..D3` takes its count from (45_shift_rotate R280). -/
inductive ShiftCount where
  | one | cl
  deriving DecidableEq, Repr

/-- The eight address forms of 30_encoding R94, in the order of `rm`. -/
inductive AddrForm where
  | bxSi | bxDi | bpSi | bpDi | si | di | bp | bx
  deriving DecidableEq, Repr

/-- A memory operand, `mod` 0 to 2 (30_encoding R94, R95): the registers of `rm` alone (`mod = 0`), the direct address
(`mod = 0, rm = 6`), with a signed 8-bit displacement (`mod = 1`), with a 16-bit displacement (`mod = 2`). -/
inductive MemOperand where
  | base (f : AddrForm)
  | direct (addr : Word)
  | disp8 (f : AddrForm) (disp : Byte)
  | disp16 (f : AddrForm) (disp : Word)
  deriving DecidableEq, Repr

/-- The r/m operand (30_encoding R94): a register (`mod = 3`) or a memory operand. -/
inductive RM where
  | reg (r : RegNum)
  | mem (m : MemOperand)
  deriving DecidableEq, Repr

/-- The three fields of a ModRM byte (30_encoding R93). -/
structure ModRM where
  mod : Fin 4
  reg : Fin 8
  rm : Fin 8
  deriving DecidableEq, Repr

/-- The eight two-operand operations, `a` in 0..7 (43_alu R220). -/
inductive AluOp where
  | add | or | adc | sbb | and | sub | xor | cmp
  deriving DecidableEq, Repr

/-- The seven shifts and rotates (45_shift_rotate R280). -/
inductive ShiftOp where
  | rol | ror | rcl | rcr | shl | shr | sar
  deriving DecidableEq, Repr

/-- The sixteen conditions of `70..7F` (40_cond_jump R130, R131), in the order of the opcodes. -/
inductive Cond where
  | o | no | b | ae | e | ne | be | a | s | ns | p | np | l | ge | le | g
  deriving DecidableEq, Repr

/-- The instructions, one constructor for each mnemonic of spec/opcode_table.json. -/
inductive Instr where
  /-- `JO rel8`, `70` (R132). -/
  | jo (rel : Byte)
  /-- `JNO rel8`, `71` (R133). -/
  | jno (rel : Byte)
  /-- `JB rel8`, `72` (R134). -/
  | jb (rel : Byte)
  /-- `JAE rel8`, `73` (R135). -/
  | jae (rel : Byte)
  /-- `JE rel8`, `74` (R136). -/
  | je (rel : Byte)
  /-- `JNE rel8`, `75` (R137). -/
  | jne (rel : Byte)
  /-- `JBE rel8`, `76` (R138). -/
  | jbe (rel : Byte)
  /-- `JA rel8`, `77` (R139). -/
  | ja (rel : Byte)
  /-- `JS rel8`, `78` (R140). -/
  | js (rel : Byte)
  /-- `JNS rel8`, `79` (R141). -/
  | jns (rel : Byte)
  /-- `JP rel8`, `7A` (R142). -/
  | jp (rel : Byte)
  /-- `JNP rel8`, `7B` (R143). -/
  | jnp (rel : Byte)
  /-- `JL rel8`, `7C` (R144). -/
  | jl (rel : Byte)
  /-- `JGE rel8`, `7D` (R145). -/
  | jge (rel : Byte)
  /-- `JLE rel8`, `7E` (R146). -/
  | jle (rel : Byte)
  /-- `JG rel8`, `7F` (R147). -/
  | jg (rel : Byte)
  /-- `MOV r/m, reg`, `88 89` (R151). -/
  | movRmR (w : Width) (reg : RegNum) (rm : RM)
  /-- `MOV reg, r/m`, `8A 8B` (R152). -/
  | movRRm (w : Width) (reg : RegNum) (rm : RM)
  /-- `MOV r/m8, imm8`, `C6 /0` (R153). -/
  | movRm8Imm8 (rm : RM) (imm : Byte)
  /-- `MOV r/m16, imm16`, `C7 /0` (R153). -/
  | movRm16Imm16 (rm : RM) (imm : Word)
  /-- `MOV r8, imm8`, `B0+r` (R154). -/
  | movR8Imm8 (r : RegNum) (imm : Byte)
  /-- `MOV r16, imm16`, `B8+r` (R154). -/
  | movR16Imm16 (r : RegNum) (imm : Word)
  /-- `MOV AL/AX, [addr16]`, `A0 A1` (R155). -/
  | movAccMoffs (w : Width) (addr : Word)
  /-- `MOV [addr16], AL/AX`, `A2 A3` (R156). -/
  | movMoffsAcc (w : Width) (addr : Word)
  /-- `MOV r/m16, sreg`, `8C` (R157). -/
  | movRm16Sreg (sr : SReg) (rm : RM)
  /-- `MOV sreg, r/m16`, `8E` (R158). -/
  | movSregRm16 (sr : SReg) (rm : RM)
  /-- `PUSH r16`, `50+r` (R159). -/
  | pushR16 (r : RegNum)
  /-- `POP r16`, `58+r` (R160). -/
  | popR16 (r : RegNum)
  /-- `PUSH sreg`, `06 0E 16 1E` (R161). -/
  | pushSreg (sr : SReg)
  /-- `POP ES`, `07` (R162). -/
  | popEs
  /-- `POP SS`, `17` (R162). -/
  | popSs
  /-- `POP DS`, `1F` (R162). -/
  | popDs
  /-- `PUSH r/m16`, `FF /6` (R163). -/
  | pushRm16 (rm : RM)
  /-- `POP r/m16`, `8F /0` (R164). -/
  | popRm16 (rm : RM)
  /-- `PUSHF`, `9C` (R165). -/
  | pushf
  /-- `POPF`, `9D` (R166). -/
  | popf
  /-- `LAHF`, `9F` (R167). -/
  | lahf
  /-- `SAHF`, `9E` (R168). -/
  | sahf
  /-- `XCHG AX, r16`, `91..97` (R169); `90` is `NOP`. -/
  | xchgAxR16 (r : RegNum)
  /-- `NOP`, `90` (R170). -/
  | nop
  /-- `XCHG reg, r/m`, `86 87` (R171). -/
  | xchgRmR (w : Width) (reg : RegNum) (rm : RM)
  /-- `LEA r16, m`, `8D` with `mod != 3` (R172). -/
  | lea (reg : RegNum) (m : MemOperand)
  /-- `LES r16, m16:16`, `C4` with `mod != 3` (R173). -/
  | les (reg : RegNum) (m : MemOperand)
  /-- `LDS r16, m16:16`, `C5` with `mod != 3` (R174). -/
  | lds (reg : RegNum) (m : MemOperand)
  /-- `XLAT`, `D7` (R175). -/
  | xlat
  /-- `CBW`, `98` (R176). -/
  | cbw
  /-- `CWD`, `99` (R177). -/
  | cwd
  /-- `INC r16`, `40+r` (R178). -/
  | incR16 (r : RegNum)
  /-- `DEC r16`, `48+r` (R179). -/
  | decR16 (r : RegNum)
  /-- `INC r/m`, `FE /0`, `FF /0` (R180). -/
  | incRm (w : Width) (rm : RM)
  /-- `DEC r/m`, `FE /1`, `FF /1` (R181). -/
  | decRm (w : Width) (rm : RM)
  /-- `TEST r/m8, imm8`, `F6 /0` (R201). -/
  | testRm8Imm8 (rm : RM) (imm : Byte)
  /-- `TEST r/m16, imm16`, `F7 /0` (R201). -/
  | testRm16Imm16 (rm : RM) (imm : Word)
  /-- `NOT r/m`, `F6 /2`, `F7 /2` (R202). -/
  | notRm (w : Width) (rm : RM)
  /-- `NEG r/m`, `F6 /3`, `F7 /3` (R203). -/
  | negRm (w : Width) (rm : RM)
  /-- `MUL r/m`, `F6 /4`, `F7 /4` (R204). -/
  | mulRm (w : Width) (rm : RM)
  /-- `IMUL r/m`, `F6 /5`, `F7 /5` (R205). -/
  | imulRm (w : Width) (rm : RM)
  /-- `DIV r/m`, `F6 /6`, `F7 /6` (R206). -/
  | divRm (w : Width) (rm : RM)
  /-- `IDIV r/m`, `F6 /7`, `F7 /7` (R207). -/
  | idivRm (w : Width) (rm : RM)
  /-- `ADD r/m, r` and `ADD r, r/m`, `00..03` (R223). -/
  | addRmR (w : Width) (d : Direction) (reg : RegNum) (rm : RM)
  /-- `ADD AL, imm8`, `04` (R223). -/
  | addAlImm8 (imm : Byte)
  /-- `ADD AX, imm16`, `05` (R223). -/
  | addAxImm16 (imm : Word)
  /-- `ADD r/m8, imm8`, `80 /0`, and `82 /0` when `op82` (R223). -/
  | addRm8Imm8 (op82 : Bool) (rm : RM) (imm : Byte)
  /-- `ADD r/m16, imm16`, `81 /0` (R223). -/
  | addRm16Imm16 (rm : RM) (imm : Word)
  /-- `ADD r/m16, imm8` sign-extended, `83 /0` (R223). -/
  | addRm16Simm8 (rm : RM) (imm : Byte)
  /-- `OR r/m, r` and `OR r, r/m`, `08..0B` (R224). -/
  | orRmR (w : Width) (d : Direction) (reg : RegNum) (rm : RM)
  /-- `OR AL, imm8`, `0C` (R224). -/
  | orAlImm8 (imm : Byte)
  /-- `OR AX, imm16`, `0D` (R224). -/
  | orAxImm16 (imm : Word)
  /-- `OR r/m8, imm8`, `80 /1`, and `82 /1` when `op82` (R224). -/
  | orRm8Imm8 (op82 : Bool) (rm : RM) (imm : Byte)
  /-- `OR r/m16, imm16`, `81 /1` (R224). -/
  | orRm16Imm16 (rm : RM) (imm : Word)
  /-- `OR r/m16, imm8` sign-extended, `83 /1` (R224). -/
  | orRm16Simm8 (rm : RM) (imm : Byte)
  /-- `ADC r/m, r` and `ADC r, r/m`, `10..13` (R225). -/
  | adcRmR (w : Width) (d : Direction) (reg : RegNum) (rm : RM)
  /-- `ADC AL, imm8`, `14` (R225). -/
  | adcAlImm8 (imm : Byte)
  /-- `ADC AX, imm16`, `15` (R225). -/
  | adcAxImm16 (imm : Word)
  /-- `ADC r/m8, imm8`, `80 /2`, and `82 /2` when `op82` (R225). -/
  | adcRm8Imm8 (op82 : Bool) (rm : RM) (imm : Byte)
  /-- `ADC r/m16, imm16`, `81 /2` (R225). -/
  | adcRm16Imm16 (rm : RM) (imm : Word)
  /-- `ADC r/m16, imm8` sign-extended, `83 /2` (R225). -/
  | adcRm16Simm8 (rm : RM) (imm : Byte)
  /-- `SBB r/m, r` and `SBB r, r/m`, `18..1B` (R226). -/
  | sbbRmR (w : Width) (d : Direction) (reg : RegNum) (rm : RM)
  /-- `SBB AL, imm8`, `1C` (R226). -/
  | sbbAlImm8 (imm : Byte)
  /-- `SBB AX, imm16`, `1D` (R226). -/
  | sbbAxImm16 (imm : Word)
  /-- `SBB r/m8, imm8`, `80 /3`, and `82 /3` when `op82` (R226). -/
  | sbbRm8Imm8 (op82 : Bool) (rm : RM) (imm : Byte)
  /-- `SBB r/m16, imm16`, `81 /3` (R226). -/
  | sbbRm16Imm16 (rm : RM) (imm : Word)
  /-- `SBB r/m16, imm8` sign-extended, `83 /3` (R226). -/
  | sbbRm16Simm8 (rm : RM) (imm : Byte)
  /-- `AND r/m, r` and `AND r, r/m`, `20..23` (R227). -/
  | andRmR (w : Width) (d : Direction) (reg : RegNum) (rm : RM)
  /-- `AND AL, imm8`, `24` (R227). -/
  | andAlImm8 (imm : Byte)
  /-- `AND AX, imm16`, `25` (R227). -/
  | andAxImm16 (imm : Word)
  /-- `AND r/m8, imm8`, `80 /4`, and `82 /4` when `op82` (R227). -/
  | andRm8Imm8 (op82 : Bool) (rm : RM) (imm : Byte)
  /-- `AND r/m16, imm16`, `81 /4` (R227). -/
  | andRm16Imm16 (rm : RM) (imm : Word)
  /-- `AND r/m16, imm8` sign-extended, `83 /4` (R227). -/
  | andRm16Simm8 (rm : RM) (imm : Byte)
  /-- `SUB r/m, r` and `SUB r, r/m`, `28..2B` (R228). -/
  | subRmR (w : Width) (d : Direction) (reg : RegNum) (rm : RM)
  /-- `SUB AL, imm8`, `2C` (R228). -/
  | subAlImm8 (imm : Byte)
  /-- `SUB AX, imm16`, `2D` (R228). -/
  | subAxImm16 (imm : Word)
  /-- `SUB r/m8, imm8`, `80 /5`, and `82 /5` when `op82` (R228). -/
  | subRm8Imm8 (op82 : Bool) (rm : RM) (imm : Byte)
  /-- `SUB r/m16, imm16`, `81 /5` (R228). -/
  | subRm16Imm16 (rm : RM) (imm : Word)
  /-- `SUB r/m16, imm8` sign-extended, `83 /5` (R228). -/
  | subRm16Simm8 (rm : RM) (imm : Byte)
  /-- `XOR r/m, r` and `XOR r, r/m`, `30..33` (R229). -/
  | xorRmR (w : Width) (d : Direction) (reg : RegNum) (rm : RM)
  /-- `XOR AL, imm8`, `34` (R229). -/
  | xorAlImm8 (imm : Byte)
  /-- `XOR AX, imm16`, `35` (R229). -/
  | xorAxImm16 (imm : Word)
  /-- `XOR r/m8, imm8`, `80 /6`, and `82 /6` when `op82` (R229). -/
  | xorRm8Imm8 (op82 : Bool) (rm : RM) (imm : Byte)
  /-- `XOR r/m16, imm16`, `81 /6` (R229). -/
  | xorRm16Imm16 (rm : RM) (imm : Word)
  /-- `XOR r/m16, imm8` sign-extended, `83 /6` (R229). -/
  | xorRm16Simm8 (rm : RM) (imm : Byte)
  /-- `CMP r/m, r` and `CMP r, r/m`, `38..3B` (R230). -/
  | cmpRmR (w : Width) (d : Direction) (reg : RegNum) (rm : RM)
  /-- `CMP AL, imm8`, `3C` (R230). -/
  | cmpAlImm8 (imm : Byte)
  /-- `CMP AX, imm16`, `3D` (R230). -/
  | cmpAxImm16 (imm : Word)
  /-- `CMP r/m8, imm8`, `80 /7`, and `82 /7` when `op82` (R230). -/
  | cmpRm8Imm8 (op82 : Bool) (rm : RM) (imm : Byte)
  /-- `CMP r/m16, imm16`, `81 /7` (R230). -/
  | cmpRm16Imm16 (rm : RM) (imm : Word)
  /-- `CMP r/m16, imm8` sign-extended, `83 /7` (R230). -/
  | cmpRm16Simm8 (rm : RM) (imm : Byte)
  /-- `TEST r/m, reg`, `84 85` (R231). -/
  | testRmR (w : Width) (reg : RegNum) (rm : RM)
  /-- `TEST AL, imm8`, `A8` (R232). -/
  | testAlImm8 (imm : Byte)
  /-- `TEST AX, imm16`, `A9` (R232). -/
  | testAxImm16 (imm : Word)
  /-- `MOVSB MOVSW`, `A4 A5` (R254). -/
  | movs (w : Width)
  /-- `CMPSB CMPSW`, `A6 A7` (R257). -/
  | cmps (w : Width)
  /-- `STOSB STOSW`, `AA AB` (R255). -/
  | stos (w : Width)
  /-- `LODSB LODSW`, `AC AD` (R256). -/
  | lods (w : Width)
  /-- `SCASB SCASW`, `AE AF` (R258). -/
  | scas (w : Width)
  /-- The segment override prefixes, `26 2E 36 3E` (R261). -/
  | segOverride (sr : SReg)
  /-- The repeat prefixes, `F2 F3` (R262). -/
  | rep (mode : RepMode)
  /-- `LOCK`, `F0` (R263). -/
  | lock
  /-- `ROL r/m, 1` and `ROL r/m, CL`, `D0..D3 /0` (R281). -/
  | rolRm (w : Width) (count : ShiftCount) (rm : RM)
  /-- `ROL r/m, imm8`, `C0 C1 /0` (R281). -/
  | rolRmImm8 (w : Width) (rm : RM) (imm : Byte)
  /-- `ROR r/m, 1` and `ROR r/m, CL`, `D0..D3 /1` (R282). -/
  | rorRm (w : Width) (count : ShiftCount) (rm : RM)
  /-- `ROR r/m, imm8`, `C0 C1 /1` (R282). -/
  | rorRmImm8 (w : Width) (rm : RM) (imm : Byte)
  /-- `RCL r/m, 1` and `RCL r/m, CL`, `D0..D3 /2` (R283). -/
  | rclRm (w : Width) (count : ShiftCount) (rm : RM)
  /-- `RCL r/m, imm8`, `C0 C1 /2` (R283). -/
  | rclRmImm8 (w : Width) (rm : RM) (imm : Byte)
  /-- `RCR r/m, 1` and `RCR r/m, CL`, `D0..D3 /3` (R284). -/
  | rcrRm (w : Width) (count : ShiftCount) (rm : RM)
  /-- `RCR r/m, imm8`, `C0 C1 /3` (R284). -/
  | rcrRmImm8 (w : Width) (rm : RM) (imm : Byte)
  /-- `SHL r/m, 1` and `SHL r/m, CL`, `D0..D3 /4` (R285). -/
  | shlRm (w : Width) (count : ShiftCount) (rm : RM)
  /-- `SHL r/m, imm8`, `C0 C1 /4` (R285). -/
  | shlRmImm8 (w : Width) (rm : RM) (imm : Byte)
  /-- `SHR r/m, 1` and `SHR r/m, CL`, `D0..D3 /5` (R286). -/
  | shrRm (w : Width) (count : ShiftCount) (rm : RM)
  /-- `SHR r/m, imm8`, `C0 C1 /5` (R286). -/
  | shrRmImm8 (w : Width) (rm : RM) (imm : Byte)
  /-- `SAR r/m, 1` and `SAR r/m, CL`, `D0..D3 /7` (R287). -/
  | sarRm (w : Width) (count : ShiftCount) (rm : RM)
  /-- `SAR r/m, imm8`, `C0 C1 /7` (R287). -/
  | sarRmImm8 (w : Width) (rm : RM) (imm : Byte)
  /-- `LOOPNE rel8`, `E0` (R301). -/
  | loopne (rel : Byte)
  /-- `LOOPE rel8`, `E1` (R302). -/
  | loope (rel : Byte)
  /-- `LOOP rel8`, `E2` (R303). -/
  | loop (rel : Byte)
  /-- `JCXZ rel8`, `E3` (R304). -/
  | jcxz (rel : Byte)
  /-- `JMP short rel8`, `EB` (R305). -/
  | jmpRel8 (rel : Byte)
  /-- `JMP near rel16`, `E9` (R306). -/
  | jmpRel16 (rel : Word)
  /-- `JMP far seg:off`, `EA` (R307). -/
  | jmpPtr (off seg : Word)
  /-- `JMP r/m16`, `FF /4` (R308). -/
  | jmpRm16 (rm : RM)
  /-- `JMP far m16:16`, `FF /5` with `mod != 3` (R309). -/
  | jmpM1616 (m : MemOperand)
  /-- `CALL near rel16`, `E8` (R310). -/
  | callRel16 (rel : Word)
  /-- `CALL far seg:off`, `9A` (R311). -/
  | callPtr (off seg : Word)
  /-- `CALL r/m16`, `FF /2` (R312). -/
  | callRm16 (rm : RM)
  /-- `CALL far m16:16`, `FF /3` with `mod != 3` (R313). -/
  | callM1616 (m : MemOperand)
  /-- `RET`, `C3` (R314). -/
  | ret
  /-- `RET imm16`, `C2` (R315). -/
  | retImm16 (imm : Word)
  /-- `RETF`, `CB` (R316). -/
  | retf
  /-- `RETF imm16`, `CA` (R317). -/
  | retfImm16 (imm : Word)
  /-- `INT imm8`, `CD` (R318). -/
  | int (vector : Byte)
  /-- `INT3`, `CC` (R319). -/
  | int3
  /-- `INTO`, `CE` (R320). -/
  | into
  /-- `IRET`, `CF` (R321). -/
  | iret
  /-- `DAA`, `27` (R341). -/
  | daa
  /-- `DAS`, `2F` (R342). -/
  | das
  /-- `AAA`, `37` (R343). -/
  | aaa
  /-- `AAS`, `3F` (R344). -/
  | aas
  /-- `AAM imm8`, `D4` (R345). -/
  | aam (base : Byte)
  /-- `AAD imm8`, `D5` (R346). -/
  | aad (base : Byte)
  /-- `IN AL/AX, imm8`, `E4 E5` (R350). -/
  | inAccImm8 (w : Width) (port : Byte)
  /-- `IN AL/AX, DX`, `EC ED` (R351). -/
  | inAccDx (w : Width)
  /-- `OUT imm8, AL/AX`, `E6 E7` (R352). -/
  | outImm8Acc (w : Width) (port : Byte)
  /-- `OUT DX, AL/AX`, `EE EF` (R353). -/
  | outDxAcc (w : Width)
  /-- `CLC`, `F8` (R354). -/
  | clc
  /-- `STC`, `F9` (R355). -/
  | stc
  /-- `CLI`, `FA` (R356). -/
  | cli
  /-- `STI`, `FB` (R357). -/
  | sti
  /-- `CLD`, `FC` (R358). -/
  | cld
  /-- `STD`, `FD` (R359). -/
  | std
  /-- `CMC`, `F5` (R360). -/
  | cmc
  /-- `HLT`, `F4` (R361). -/
  | hlt
  /-- `WAIT`, `9B` (R362). -/
  | wait
  /-- `ESC`, `D8..DF` (R363); `x` is the low three bits of the opcode byte. -/
  | esc (x : Fin 8) (reg : RegNum) (rm : RM)
  /-- `0F 00`, character output (R365). -/
  | putchar
  /-- `0F 01`, clock query (R366). -/
  | getTime
  /-- `0F 02`, disk read (R367). -/
  | diskRead
  /-- `0F 03`, disk write (R368). -/
  | diskWrite
  /-- Reserved: `0F` with a sub-code of 4 or above (R369). -/
  | reserved0F (sub : Byte)
  /-- Reserved: first bytes `60..6F` (R370). -/
  | reserved60to6F (x : Fin 16)
  /-- Reserved: `8C` with `reg >= 4` (R371). -/
  | reserved8C (m : ModRM)
  /-- Reserved: `8D` with `mod = 3` (R371). -/
  | reserved8D (reg rm : RegNum)
  /-- Reserved: `8E` with `reg >= 4` (R371). -/
  | reserved8E (m : ModRM)
  /-- Reserved: `8F /1` to `/7` (R371). -/
  | reserved8F (m : ModRM)
  /-- Reserved: `C0 /6`, `C1 /6` (R288). -/
  | reservedC0C1 (w : Width) (mod : Fin 4) (rm : RegNum)
  /-- Reserved: `C4` with `mod = 3` (R371). -/
  | reservedC4 (reg rm : RegNum)
  /-- Reserved: `C5` with `mod = 3` (R371). -/
  | reservedC5 (reg rm : RegNum)
  /-- Reserved: `C6 /1` to `/7` (R371). -/
  | reservedC6 (m : ModRM)
  /-- Reserved: `C7 /1` to `/7` (R371). -/
  | reservedC7 (m : ModRM)
  /-- Reserved: first bytes `C8`, `C9` (R370). -/
  | reservedC8C9 (x : Fin 2)
  /-- Reserved: `D0..D3 /6` (R288). -/
  | reservedD0toD3 (w : Width) (count : ShiftCount) (mod : Fin 4) (rm : RegNum)
  /-- Reserved: first byte `D6` (R370). -/
  | reservedD6
  /-- Reserved: first byte `F1` (R370). -/
  | reservedF1
  /-- Reserved: `F6 /1`, `F7 /1` (R371). -/
  | reservedF6F7 (w : Width) (mod : Fin 4) (rm : RegNum)
  /-- Reserved: `FE /2` to `/7` (R371). -/
  | reservedFE (m : ModRM)
  /-- Reserved: `FF /3` with `mod = 3` (R371). -/
  | reservedFF3 (rm : RegNum)
  /-- Reserved: `FF /5` with `mod = 3` (R371). -/
  | reservedFF5 (rm : RegNum)
  /-- Reserved: `FF /7` (R371). -/
  | reservedFF7 (mod : Fin 4) (rm : RegNum)
  deriving DecidableEq, Repr

end Sys2Proof
end

