-- ==== Sys2Proof/WellFormed.lean ====
section
/-! DEFINITION. Which terms of `Instr` stand for an encoding (30_encoding R94, R103, R104; 41_data_movement R169). -/

namespace Sys2Proof

/-- `mod = 0, rm = 6` is the direct address, so the form `BP` alone has no encoding (30_encoding R94). -/
def MemOperand.wf : MemOperand → Bool
  | .base f => decide (f ≠ .bp)
  | .direct _ => true
  | .disp8 _ _ => true
  | .disp16 _ _ => true

/-- A register operand always has an encoding. -/
def RM.wf : RM → Bool
  | .reg _ => true
  | .mem m => m.wf

/-- The instruction stands for an encoding of its row: its r/m operand has one, `XCHG AX, r16` is not `NOP`, and a reserved
group member has a `reg` (or sub-code) of its row. -/
def Instr.wf : Instr → Bool
  | .jo _ => true
  | .jno _ => true
  | .jb _ => true
  | .jae _ => true
  | .je _ => true
  | .jne _ => true
  | .jbe _ => true
  | .ja _ => true
  | .js _ => true
  | .jns _ => true
  | .jp _ => true
  | .jnp _ => true
  | .jl _ => true
  | .jge _ => true
  | .jle _ => true
  | .jg _ => true
  | .movRmR _ _ rm => rm.wf
  | .movRRm _ _ rm => rm.wf
  | .movRm8Imm8 rm _ => rm.wf
  | .movRm16Imm16 rm _ => rm.wf
  | .movR8Imm8 _ _ => true
  | .movR16Imm16 _ _ => true
  | .movAccMoffs _ _ => true
  | .movMoffsAcc _ _ => true
  | .movRm16Sreg _ rm => rm.wf
  | .movSregRm16 _ rm => rm.wf
  | .pushR16 _ => true
  | .popR16 _ => true
  | .pushSreg _ => true
  | .popEs => true
  | .popSs => true
  | .popDs => true
  | .pushRm16 rm => rm.wf
  | .popRm16 rm => rm.wf
  | .pushf => true
  | .popf => true
  | .lahf => true
  | .sahf => true
  | .xchgAxR16 r => decide (r ≠ 0)
  | .nop => true
  | .xchgRmR _ _ rm => rm.wf
  | .lea _ m => m.wf
  | .les _ m => m.wf
  | .lds _ m => m.wf
  | .xlat => true
  | .cbw => true
  | .cwd => true
  | .incR16 _ => true
  | .decR16 _ => true
  | .incRm _ rm => rm.wf
  | .decRm _ rm => rm.wf
  | .testRm8Imm8 rm _ => rm.wf
  | .testRm16Imm16 rm _ => rm.wf
  | .notRm _ rm => rm.wf
  | .negRm _ rm => rm.wf
  | .mulRm _ rm => rm.wf
  | .imulRm _ rm => rm.wf
  | .divRm _ rm => rm.wf
  | .idivRm _ rm => rm.wf
  | .addRmR _ _ _ rm => rm.wf
  | .addAlImm8 _ => true
  | .addAxImm16 _ => true
  | .addRm8Imm8 _ rm _ => rm.wf
  | .addRm16Imm16 rm _ => rm.wf
  | .addRm16Simm8 rm _ => rm.wf
  | .orRmR _ _ _ rm => rm.wf
  | .orAlImm8 _ => true
  | .orAxImm16 _ => true
  | .orRm8Imm8 _ rm _ => rm.wf
  | .orRm16Imm16 rm _ => rm.wf
  | .orRm16Simm8 rm _ => rm.wf
  | .adcRmR _ _ _ rm => rm.wf
  | .adcAlImm8 _ => true
  | .adcAxImm16 _ => true
  | .adcRm8Imm8 _ rm _ => rm.wf
  | .adcRm16Imm16 rm _ => rm.wf
  | .adcRm16Simm8 rm _ => rm.wf
  | .sbbRmR _ _ _ rm => rm.wf
  | .sbbAlImm8 _ => true
  | .sbbAxImm16 _ => true
  | .sbbRm8Imm8 _ rm _ => rm.wf
  | .sbbRm16Imm16 rm _ => rm.wf
  | .sbbRm16Simm8 rm _ => rm.wf
  | .andRmR _ _ _ rm => rm.wf
  | .andAlImm8 _ => true
  | .andAxImm16 _ => true
  | .andRm8Imm8 _ rm _ => rm.wf
  | .andRm16Imm16 rm _ => rm.wf
  | .andRm16Simm8 rm _ => rm.wf
  | .subRmR _ _ _ rm => rm.wf
  | .subAlImm8 _ => true
  | .subAxImm16 _ => true
  | .subRm8Imm8 _ rm _ => rm.wf
  | .subRm16Imm16 rm _ => rm.wf
  | .subRm16Simm8 rm _ => rm.wf
  | .xorRmR _ _ _ rm => rm.wf
  | .xorAlImm8 _ => true
  | .xorAxImm16 _ => true
  | .xorRm8Imm8 _ rm _ => rm.wf
  | .xorRm16Imm16 rm _ => rm.wf
  | .xorRm16Simm8 rm _ => rm.wf
  | .cmpRmR _ _ _ rm => rm.wf
  | .cmpAlImm8 _ => true
  | .cmpAxImm16 _ => true
  | .cmpRm8Imm8 _ rm _ => rm.wf
  | .cmpRm16Imm16 rm _ => rm.wf
  | .cmpRm16Simm8 rm _ => rm.wf
  | .testRmR _ _ rm => rm.wf
  | .testAlImm8 _ => true
  | .testAxImm16 _ => true
  | .movs _ => true
  | .cmps _ => true
  | .stos _ => true
  | .lods _ => true
  | .scas _ => true
  | .segOverride _ => true
  | .rep _ => true
  | .lock => true
  | .rolRm _ _ rm => rm.wf
  | .rolRmImm8 _ rm _ => rm.wf
  | .rorRm _ _ rm => rm.wf
  | .rorRmImm8 _ rm _ => rm.wf
  | .rclRm _ _ rm => rm.wf
  | .rclRmImm8 _ rm _ => rm.wf
  | .rcrRm _ _ rm => rm.wf
  | .rcrRmImm8 _ rm _ => rm.wf
  | .shlRm _ _ rm => rm.wf
  | .shlRmImm8 _ rm _ => rm.wf
  | .shrRm _ _ rm => rm.wf
  | .shrRmImm8 _ rm _ => rm.wf
  | .sarRm _ _ rm => rm.wf
  | .sarRmImm8 _ rm _ => rm.wf
  | .loopne _ => true
  | .loope _ => true
  | .loop _ => true
  | .jcxz _ => true
  | .jmpRel8 _ => true
  | .jmpRel16 _ => true
  | .jmpPtr _ _ => true
  | .jmpRm16 rm => rm.wf
  | .jmpM1616 m => m.wf
  | .callRel16 _ => true
  | .callPtr _ _ => true
  | .callRm16 rm => rm.wf
  | .callM1616 m => m.wf
  | .ret => true
  | .retImm16 _ => true
  | .retf => true
  | .retfImm16 _ => true
  | .int _ => true
  | .int3 => true
  | .into => true
  | .iret => true
  | .daa => true
  | .das => true
  | .aaa => true
  | .aas => true
  | .aam _ => true
  | .aad _ => true
  | .inAccImm8 _ _ => true
  | .inAccDx _ => true
  | .outImm8Acc _ _ => true
  | .outDxAcc _ => true
  | .clc => true
  | .stc => true
  | .cli => true
  | .sti => true
  | .cld => true
  | .std => true
  | .cmc => true
  | .hlt => true
  | .wait => true
  | .esc _ _ rm => rm.wf
  | .putchar => true
  | .getTime => true
  | .diskRead => true
  | .diskWrite => true
  | .reserved0F sub => decide (4 ≤ sub.toNat)
  | .reserved60to6F _ => true
  | .reserved8C m => decide (4 ≤ m.reg.val)
  | .reserved8D _ _ => true
  | .reserved8E m => decide (4 ≤ m.reg.val)
  | .reserved8F m => decide (m.reg ≠ 0)
  | .reservedC0C1 _ _ _ => true
  | .reservedC4 _ _ => true
  | .reservedC5 _ _ => true
  | .reservedC6 m => decide (m.reg ≠ 0)
  | .reservedC7 m => decide (m.reg ≠ 0)
  | .reservedC8C9 _ => true
  | .reservedD0toD3 _ _ _ _ => true
  | .reservedD6 => true
  | .reservedF1 => true
  | .reservedF6F7 _ _ _ => true
  | .reservedFE m => decide (2 ≤ m.reg.val)
  | .reservedFF3 _ => true
  | .reservedFF5 _ => true
  | .reservedFF7 _ _ => true

end Sys2Proof
end

