-- ==== Sys2Proof/Decode.lean ====
section
/-! DEFINITION. The decoder, total on any bytes, and the encoder (30_encoding R90 to R105). Decoding goes in two steps: the
first byte names an `Opcode` (the map of R102), and the format of the opcode says which bytes follow it (R91, R95, R97). -/

namespace Sys2Proof

/-- What the first byte of an instruction selects (30_encoding R92, R102): a format and the fields the byte itself holds. -/
inductive Opcode where
  | aluRmR (a : AluOp) (w : Width) (d : Direction) | aluAccImm (a : AluOp) (w : Width)
  | pushSreg (sr : SReg) | popEs | popSs | popDs | ext | segOverride (sr : SReg)
  | daa | das | aaa | aas
  | incR (r : RegNum) | decR (r : RegNum) | pushR (r : RegNum) | popR (r : RegNum)
  | reserved60to6F (x : Fin 16) | jcc (c : Cond)
  | grp1Imm8 (op82 : Bool) | grp1Imm16 | grp1Simm8
  | testRmR (w : Width) | xchgRmR (w : Width) | movRmR (w : Width) | movRRm (w : Width)
  | movRmSreg | lea | movSregRm | grp8F
  | xchgAx (r : RegNum) | cbw | cwd | callPtr | wait | pushf | popf | sahf | lahf
  | movAccMoffs (w : Width) | movMoffsAcc (w : Width) | movs (w : Width) | cmps (w : Width)
  | testAccImm (w : Width) | stos (w : Width) | lods (w : Width) | scas (w : Width)
  | movR8Imm (r : RegNum) | movR16Imm (r : RegNum)
  | grp2Imm (w : Width) | retImm16 | ret | les | lds | movRmImm (w : Width) | reservedC8C9 (x : Fin 2)
  | retfImm16 | retf | int3 | int | into | iret
  | grp2 (w : Width) (count : ShiftCount) | aam | aad | reservedD6 | xlat | esc (x : Fin 8)
  | loopne | loope | loop | jcxz | inImm (w : Width) | outImm (w : Width)
  | callRel16 | jmpRel16 | jmpPtr | jmpRel8 | inDx (w : Width) | outDx (w : Width)
  | lock | reservedF1 | rep (mode : RepMode) | hlt | cmc | grp3 (w : Width)
  | clc | stc | cli | sti | cld | std | grp4 | grp5
  deriving DecidableEq, Repr

/-! ### Fields as numbers (30_encoding R92, R93) -/

/-- The bit `w = op[0]`. -/
def Width.num : Width → Nat
  | .byte => 0
  | .word => 1

/-- The bit `d = op[1]`. -/
def Direction.num : Direction → Nat
  | .toRm => 0
  | .toReg => 1

/-- The segment register number `s` (10_state R23). -/
def SReg.num : SReg → Nat
  | .es => 0
  | .cs => 1
  | .ss => 2
  | .ds => 3

/-- The segment register as a `reg` field. -/
def SReg.regNum : SReg → RegNum
  | .es => 0
  | .cs => 1
  | .ss => 2
  | .ds => 3

/-- The segment register of a `reg` field; `reg >= 4` names none (30_encoding R104). -/
def SReg.ofRegNum (r : RegNum) : Option SReg :=
  match r with
  | 0 => some .es
  | 1 => some .cs
  | 2 => some .ss
  | 3 => some .ds
  | 4 => none
  | 5 => none
  | 6 => none
  | 7 => none

/-- `RepMode = op[0]` (44_string_prefix R262). -/
def RepMode.num : RepMode → Nat
  | .repne => 0
  | .repe => 1

/-- In `D0..D3` bit 1 selects the count source (30_encoding R92). -/
def ShiftCount.num : ShiftCount → Nat
  | .one => 0
  | .cl => 1

/-- The operation index `a` (30_encoding R102). -/
def AluOp.num : AluOp → Nat
  | .add => 0
  | .or => 1
  | .adc => 2
  | .sbb => 3
  | .and => 4
  | .sub => 5
  | .xor => 6
  | .cmp => 7

/-- The operation of a group 1 `reg` field (30_encoding R103). -/
def AluOp.ofRegNum (r : RegNum) : AluOp :=
  match r with
  | 0 => .add
  | 1 => .or
  | 2 => .adc
  | 3 => .sbb
  | 4 => .and
  | 5 => .sub
  | 6 => .xor
  | 7 => .cmp

/-- The operation of a group 2 `reg` field; `/6` is reserved (30_encoding R103). -/
def ShiftOp.ofRegNum (r : RegNum) : Option ShiftOp :=
  match r with
  | 0 => some .rol
  | 1 => some .ror
  | 2 => some .rcl
  | 3 => some .rcr
  | 4 => some .shl
  | 5 => some .shr
  | 6 => none
  | 7 => some .sar

/-- `op[3:0]` of a conditional jump: the class `k = op[3:1]` and the invert bit `op[0]` (40_cond_jump R130). -/
def Cond.num : Cond → Nat
  | .o => 0
  | .no => 1
  | .b => 2
  | .ae => 3
  | .e => 4
  | .ne => 5
  | .be => 6
  | .a => 7
  | .s => 8
  | .ns => 9
  | .p => 10
  | .np => 11
  | .l => 12
  | .ge => 13
  | .le => 14
  | .g => 15

/-- The `rm` field of an address form (30_encoding R94). -/
def AddrForm.num : AddrForm → RegNum
  | .bxSi => 0
  | .bxDi => 1
  | .bpSi => 2
  | .bpDi => 3
  | .si => 4
  | .di => 5
  | .bp => 6
  | .bx => 7

/-- The address form of an `rm` field (30_encoding R94). -/
def AddrForm.ofNum (r : RegNum) : AddrForm :=
  match r with
  | 0 => .bxSi
  | 1 => .bxDi
  | 2 => .bpSi
  | 3 => .bpDi
  | 4 => .si
  | 5 => .di
  | 6 => .bp
  | 7 => .bx

/-- `FE` is group 4, `FF` group 5 (30_encoding R103). -/
def incDecOpcode : Width → Opcode
  | .byte => .grp4
  | .word => .grp5

/-! ### The opcode map (30_encoding R102) -/

/-- First bytes `00..0F` (30_encoding R102). -/
def opcodeRow0 : List Opcode :=
  [ .aluRmR .add .byte .toRm, .aluRmR .add .word .toRm, .aluRmR .add .byte .toReg, .aluRmR .add .word .toReg,
    .aluAccImm .add .byte, .aluAccImm .add .word, .pushSreg .es, .popEs,
    .aluRmR .or .byte .toRm, .aluRmR .or .word .toRm, .aluRmR .or .byte .toReg, .aluRmR .or .word .toReg,
    .aluAccImm .or .byte, .aluAccImm .or .word, .pushSreg .cs, .ext ]

/-- First bytes `10..1F` (30_encoding R102). -/
def opcodeRow1 : List Opcode :=
  [ .aluRmR .adc .byte .toRm, .aluRmR .adc .word .toRm, .aluRmR .adc .byte .toReg, .aluRmR .adc .word .toReg,
    .aluAccImm .adc .byte, .aluAccImm .adc .word, .pushSreg .ss, .popSs,
    .aluRmR .sbb .byte .toRm, .aluRmR .sbb .word .toRm, .aluRmR .sbb .byte .toReg, .aluRmR .sbb .word .toReg,
    .aluAccImm .sbb .byte, .aluAccImm .sbb .word, .pushSreg .ds, .popDs ]

/-- First bytes `20..2F` (30_encoding R102). -/
def opcodeRow2 : List Opcode :=
  [ .aluRmR .and .byte .toRm, .aluRmR .and .word .toRm, .aluRmR .and .byte .toReg, .aluRmR .and .word .toReg,
    .aluAccImm .and .byte, .aluAccImm .and .word, .segOverride .es, .daa,
    .aluRmR .sub .byte .toRm, .aluRmR .sub .word .toRm, .aluRmR .sub .byte .toReg, .aluRmR .sub .word .toReg,
    .aluAccImm .sub .byte, .aluAccImm .sub .word, .segOverride .cs, .das ]

/-- First bytes `30..3F` (30_encoding R102). -/
def opcodeRow3 : List Opcode :=
  [ .aluRmR .xor .byte .toRm, .aluRmR .xor .word .toRm, .aluRmR .xor .byte .toReg, .aluRmR .xor .word .toReg,
    .aluAccImm .xor .byte, .aluAccImm .xor .word, .segOverride .ss, .aaa,
    .aluRmR .cmp .byte .toRm, .aluRmR .cmp .word .toRm, .aluRmR .cmp .byte .toReg, .aluRmR .cmp .word .toReg,
    .aluAccImm .cmp .byte, .aluAccImm .cmp .word, .segOverride .ds, .aas ]

/-- First bytes `40..4F` (30_encoding R102). -/
def opcodeRow4 : List Opcode :=
  [ .incR 0, .incR 1, .incR 2, .incR 3,
    .incR 4, .incR 5, .incR 6, .incR 7,
    .decR 0, .decR 1, .decR 2, .decR 3,
    .decR 4, .decR 5, .decR 6, .decR 7 ]

/-- First bytes `50..5F` (30_encoding R102). -/
def opcodeRow5 : List Opcode :=
  [ .pushR 0, .pushR 1, .pushR 2, .pushR 3,
    .pushR 4, .pushR 5, .pushR 6, .pushR 7,
    .popR 0, .popR 1, .popR 2, .popR 3,
    .popR 4, .popR 5, .popR 6, .popR 7 ]

/-- First bytes `60..6F` (30_encoding R102). -/
def opcodeRow6 : List Opcode :=
  [ .reserved60to6F 0, .reserved60to6F 1, .reserved60to6F 2, .reserved60to6F 3,
    .reserved60to6F 4, .reserved60to6F 5, .reserved60to6F 6, .reserved60to6F 7,
    .reserved60to6F 8, .reserved60to6F 9, .reserved60to6F 10, .reserved60to6F 11,
    .reserved60to6F 12, .reserved60to6F 13, .reserved60to6F 14, .reserved60to6F 15 ]

/-- First bytes `70..7F` (30_encoding R102). -/
def opcodeRow7 : List Opcode :=
  [ .jcc .o, .jcc .no, .jcc .b, .jcc .ae,
    .jcc .e, .jcc .ne, .jcc .be, .jcc .a,
    .jcc .s, .jcc .ns, .jcc .p, .jcc .np,
    .jcc .l, .jcc .ge, .jcc .le, .jcc .g ]

/-- First bytes `80..8F` (30_encoding R102). -/
def opcodeRow8 : List Opcode :=
  [ .grp1Imm8 false, .grp1Imm16, .grp1Imm8 true, .grp1Simm8,
    .testRmR .byte, .testRmR .word, .xchgRmR .byte, .xchgRmR .word,
    .movRmR .byte, .movRmR .word, .movRRm .byte, .movRRm .word,
    .movRmSreg, .lea, .movSregRm, .grp8F ]

/-- First bytes `90..9F` (30_encoding R102). -/
def opcodeRow9 : List Opcode :=
  [ .xchgAx 0, .xchgAx 1, .xchgAx 2, .xchgAx 3,
    .xchgAx 4, .xchgAx 5, .xchgAx 6, .xchgAx 7,
    .cbw, .cwd, .callPtr, .wait,
    .pushf, .popf, .sahf, .lahf ]

/-- First bytes `A0..AF` (30_encoding R102). -/
def opcodeRowA : List Opcode :=
  [ .movAccMoffs .byte, .movAccMoffs .word, .movMoffsAcc .byte, .movMoffsAcc .word,
    .movs .byte, .movs .word, .cmps .byte, .cmps .word,
    .testAccImm .byte, .testAccImm .word, .stos .byte, .stos .word,
    .lods .byte, .lods .word, .scas .byte, .scas .word ]

/-- First bytes `B0..BF` (30_encoding R102). -/
def opcodeRowB : List Opcode :=
  [ .movR8Imm 0, .movR8Imm 1, .movR8Imm 2, .movR8Imm 3,
    .movR8Imm 4, .movR8Imm 5, .movR8Imm 6, .movR8Imm 7,
    .movR16Imm 0, .movR16Imm 1, .movR16Imm 2, .movR16Imm 3,
    .movR16Imm 4, .movR16Imm 5, .movR16Imm 6, .movR16Imm 7 ]

/-- First bytes `C0..CF` (30_encoding R102). -/
def opcodeRowC : List Opcode :=
  [ .grp2Imm .byte, .grp2Imm .word, .retImm16, .ret,
    .les, .lds, .movRmImm .byte, .movRmImm .word,
    .reservedC8C9 0, .reservedC8C9 1, .retfImm16, .retf,
    .int3, .int, .into, .iret ]

/-- First bytes `D0..DF` (30_encoding R102). -/
def opcodeRowD : List Opcode :=
  [ .grp2 .byte .one, .grp2 .word .one, .grp2 .byte .cl, .grp2 .word .cl,
    .aam, .aad, .reservedD6, .xlat,
    .esc 0, .esc 1, .esc 2, .esc 3,
    .esc 4, .esc 5, .esc 6, .esc 7 ]

/-- First bytes `E0..EF` (30_encoding R102). -/
def opcodeRowE : List Opcode :=
  [ .loopne, .loope, .loop, .jcxz,
    .inImm .byte, .inImm .word, .outImm .byte, .outImm .word,
    .callRel16, .jmpRel16, .jmpPtr, .jmpRel8,
    .inDx .byte, .inDx .word, .outDx .byte, .outDx .word ]

/-- First bytes `F0..FF` (30_encoding R102). -/
def opcodeRowF : List Opcode :=
  [ .lock, .reservedF1, .rep .repne, .rep .repe,
    .hlt, .cmc, .grp3 .byte, .grp3 .word,
    .clc, .stc, .cli, .sti,
    .cld, .std, .grp4, .grp5 ]

/-- The opcode map: what each of the 256 first bytes selects. -/
def opcodeMap : List Opcode :=
  opcodeRow0 ++ opcodeRow1 ++ opcodeRow2 ++ opcodeRow3 ++ opcodeRow4 ++ opcodeRow5 ++ opcodeRow6 ++ opcodeRow7 ++
  opcodeRow8 ++ opcodeRow9 ++ opcodeRowA ++ opcodeRowB ++ opcodeRowC ++ opcodeRowD ++ opcodeRowE ++ opcodeRowF

/-- The opcode a first byte selects. The map has all 256 entries, so the default is never taken. -/
def Opcode.ofByte (b : Byte) : Opcode := opcodeMap.getD b.toNat .reservedF1

/-- The first byte of an opcode, from the positional fields of 30_encoding R92 and the encoding line of each instruction's rule. -/
def Opcode.byte : Opcode → Byte
  | .aluRmR a w d => BitVec.ofNat 8 (8 * a.num + 2 * d.num + w.num)
  | .aluAccImm a w => BitVec.ofNat 8 (8 * a.num + 4 + w.num)
  | .pushSreg sr => BitVec.ofNat 8 (0x06 + 8 * sr.num)
  | .popEs => 0x07
  | .popSs => 0x17
  | .popDs => 0x1F
  | .ext => 0x0F
  | .segOverride sr => BitVec.ofNat 8 (0x26 + 8 * sr.num)
  | .daa => 0x27
  | .das => 0x2F
  | .aaa => 0x37
  | .aas => 0x3F
  | .incR r => BitVec.ofNat 8 (0x40 + r.val)
  | .decR r => BitVec.ofNat 8 (0x48 + r.val)
  | .pushR r => BitVec.ofNat 8 (0x50 + r.val)
  | .popR r => BitVec.ofNat 8 (0x58 + r.val)
  | .reserved60to6F x => BitVec.ofNat 8 (0x60 + x.val)
  | .jcc c => BitVec.ofNat 8 (0x70 + c.num)
  | .grp1Imm8 op82 => if op82 then 0x82 else 0x80
  | .grp1Imm16 => 0x81
  | .grp1Simm8 => 0x83
  | .testRmR w => BitVec.ofNat 8 (0x84 + w.num)
  | .xchgRmR w => BitVec.ofNat 8 (0x86 + w.num)
  | .movRmR w => BitVec.ofNat 8 (0x88 + w.num)
  | .movRRm w => BitVec.ofNat 8 (0x8A + w.num)
  | .movRmSreg => 0x8C
  | .lea => 0x8D
  | .movSregRm => 0x8E
  | .grp8F => 0x8F
  | .xchgAx r => BitVec.ofNat 8 (0x90 + r.val)
  | .cbw => 0x98
  | .cwd => 0x99
  | .callPtr => 0x9A
  | .wait => 0x9B
  | .pushf => 0x9C
  | .popf => 0x9D
  | .sahf => 0x9E
  | .lahf => 0x9F
  | .movAccMoffs w => BitVec.ofNat 8 (0xA0 + w.num)
  | .movMoffsAcc w => BitVec.ofNat 8 (0xA2 + w.num)
  | .movs w => BitVec.ofNat 8 (0xA4 + w.num)
  | .cmps w => BitVec.ofNat 8 (0xA6 + w.num)
  | .testAccImm w => BitVec.ofNat 8 (0xA8 + w.num)
  | .stos w => BitVec.ofNat 8 (0xAA + w.num)
  | .lods w => BitVec.ofNat 8 (0xAC + w.num)
  | .scas w => BitVec.ofNat 8 (0xAE + w.num)
  | .movR8Imm r => BitVec.ofNat 8 (0xB0 + r.val)
  | .movR16Imm r => BitVec.ofNat 8 (0xB8 + r.val)
  | .grp2Imm w => BitVec.ofNat 8 (0xC0 + w.num)
  | .retImm16 => 0xC2
  | .ret => 0xC3
  | .les => 0xC4
  | .lds => 0xC5
  | .movRmImm w => BitVec.ofNat 8 (0xC6 + w.num)
  | .reservedC8C9 x => BitVec.ofNat 8 (0xC8 + x.val)
  | .retfImm16 => 0xCA
  | .retf => 0xCB
  | .int3 => 0xCC
  | .int => 0xCD
  | .into => 0xCE
  | .iret => 0xCF
  | .grp2 w count => BitVec.ofNat 8 (0xD0 + 2 * count.num + w.num)
  | .aam => 0xD4
  | .aad => 0xD5
  | .reservedD6 => 0xD6
  | .xlat => 0xD7
  | .esc x => BitVec.ofNat 8 (0xD8 + x.val)
  | .loopne => 0xE0
  | .loope => 0xE1
  | .loop => 0xE2
  | .jcxz => 0xE3
  | .inImm w => BitVec.ofNat 8 (0xE4 + w.num)
  | .outImm w => BitVec.ofNat 8 (0xE6 + w.num)
  | .callRel16 => 0xE8
  | .jmpRel16 => 0xE9
  | .jmpPtr => 0xEA
  | .jmpRel8 => 0xEB
  | .inDx w => BitVec.ofNat 8 (0xEC + w.num)
  | .outDx w => BitVec.ofNat 8 (0xEE + w.num)
  | .lock => 0xF0
  | .reservedF1 => 0xF1
  | .rep mode => BitVec.ofNat 8 (0xF2 + mode.num)
  | .hlt => 0xF4
  | .cmc => 0xF5
  | .grp3 w => BitVec.ofNat 8 (0xF6 + w.num)
  | .clc => 0xF8
  | .stc => 0xF9
  | .cli => 0xFA
  | .sti => 0xFB
  | .cld => 0xFC
  | .std => 0xFD
  | .grp4 => 0xFE
  | .grp5 => 0xFF

/-! ### The ModRM byte and the operand bytes (30_encoding R93 to R95, R97) -/

/-- `mod = m[7:6]`, `reg = m[5:3]`, `rm = m[2:0]` (30_encoding R93). -/
def ModRM.ofByte (m : Byte) : ModRM :=
  ⟨Fin.ofNat 4 (m.toNat / 64), Fin.ofNat 8 (m.toNat / 8), Fin.ofNat 8 m.toNat⟩

/-- The ModRM byte of three fields. -/
def ModRM.byte (m : ModRM) : Byte := BitVec.ofNat 8 (m.mod.val * 64 + m.reg.val * 8 + m.rm.val)

/-- The two bytes of a word, low byte first (20_memory R62). -/
def wordBytes (v : Word) : List Byte := [v.setWidth 8, (v >>> 8).setWidth 8]

/-- `mod` of a memory operand (30_encoding R94, R95). -/
def MemOperand.mod : MemOperand → Fin 4
  | .base _ => 0
  | .direct _ => 0
  | .disp8 _ _ => 1
  | .disp16 _ _ => 2

/-- `rm` of a memory operand (30_encoding R94). -/
def MemOperand.rmField : MemOperand → RegNum
  | .base f => f.num
  | .direct _ => 6
  | .disp8 f _ => f.num
  | .disp16 f _ => f.num

/-- The displacement length `dl` (30_encoding R95). -/
def MemOperand.dispLen : MemOperand → Nat
  | .base _ => 0
  | .direct _ => 2
  | .disp8 _ _ => 1
  | .disp16 _ _ => 2

/-- The displacement bytes (30_encoding R95). -/
def MemOperand.dispBytes : MemOperand → List Byte
  | .base _ => []
  | .direct a => wordBytes a
  | .disp8 _ d => [d]
  | .disp16 _ d => wordBytes d

/-- `dl` of an r/m operand; a register operand has no displacement (30_encoding R95). -/
def RM.dispLen : RM → Nat
  | .reg _ => 0
  | .mem m => m.dispLen

/-- The ModRM byte and the displacement of an r/m operand beside a `reg` field. -/
def rmBytes (reg : RegNum) : RM → List Byte
  | .reg r => [ModRM.byte ⟨3, reg, r⟩]
  | .mem m => ModRM.byte ⟨m.mod, reg, m.rmField⟩ :: m.dispBytes

/-! ### Groups and constructors -/

/-- The constructor of operation `a` in this form (43_alu R220). -/
def Instr.aluRmR (a : AluOp) (w : Width) (d : Direction) (reg : RegNum) (rm : RM) : Instr :=
  match a with
  | .add => .addRmR w d reg rm
  | .or => .orRmR w d reg rm
  | .adc => .adcRmR w d reg rm
  | .sbb => .sbbRmR w d reg rm
  | .and => .andRmR w d reg rm
  | .sub => .subRmR w d reg rm
  | .xor => .xorRmR w d reg rm
  | .cmp => .cmpRmR w d reg rm

/-- The constructor of operation `a` in this form (43_alu R220). -/
def Instr.aluAlImm8 (a : AluOp) (imm : Byte) : Instr :=
  match a with
  | .add => .addAlImm8 imm
  | .or => .orAlImm8 imm
  | .adc => .adcAlImm8 imm
  | .sbb => .sbbAlImm8 imm
  | .and => .andAlImm8 imm
  | .sub => .subAlImm8 imm
  | .xor => .xorAlImm8 imm
  | .cmp => .cmpAlImm8 imm

/-- The constructor of operation `a` in this form (43_alu R220). -/
def Instr.aluAxImm16 (a : AluOp) (imm : Word) : Instr :=
  match a with
  | .add => .addAxImm16 imm
  | .or => .orAxImm16 imm
  | .adc => .adcAxImm16 imm
  | .sbb => .sbbAxImm16 imm
  | .and => .andAxImm16 imm
  | .sub => .subAxImm16 imm
  | .xor => .xorAxImm16 imm
  | .cmp => .cmpAxImm16 imm

/-- The constructor of operation `a` in this form (43_alu R220). -/
def Instr.aluRm8Imm8 (a : AluOp) (op82 : Bool) (rm : RM) (imm : Byte) : Instr :=
  match a with
  | .add => .addRm8Imm8 op82 rm imm
  | .or => .orRm8Imm8 op82 rm imm
  | .adc => .adcRm8Imm8 op82 rm imm
  | .sbb => .sbbRm8Imm8 op82 rm imm
  | .and => .andRm8Imm8 op82 rm imm
  | .sub => .subRm8Imm8 op82 rm imm
  | .xor => .xorRm8Imm8 op82 rm imm
  | .cmp => .cmpRm8Imm8 op82 rm imm

/-- The constructor of operation `a` in this form (43_alu R220). -/
def Instr.aluRm16Imm16 (a : AluOp) (rm : RM) (imm : Word) : Instr :=
  match a with
  | .add => .addRm16Imm16 rm imm
  | .or => .orRm16Imm16 rm imm
  | .adc => .adcRm16Imm16 rm imm
  | .sbb => .sbbRm16Imm16 rm imm
  | .and => .andRm16Imm16 rm imm
  | .sub => .subRm16Imm16 rm imm
  | .xor => .xorRm16Imm16 rm imm
  | .cmp => .cmpRm16Imm16 rm imm

/-- The constructor of operation `a` in this form (43_alu R220). -/
def Instr.aluRm16Simm8 (a : AluOp) (rm : RM) (imm : Byte) : Instr :=
  match a with
  | .add => .addRm16Simm8 rm imm
  | .or => .orRm16Simm8 rm imm
  | .adc => .adcRm16Simm8 rm imm
  | .sbb => .sbbRm16Simm8 rm imm
  | .and => .andRm16Simm8 rm imm
  | .sub => .subRm16Simm8 rm imm
  | .xor => .xorRm16Simm8 rm imm
  | .cmp => .cmpRm16Simm8 rm imm

/-- The constructor of shift or rotate `op` in this form (45_shift_rotate R280). -/
def Instr.shiftRm (op : ShiftOp) (w : Width) (count : ShiftCount) (rm : RM) : Instr :=
  match op with
  | .rol => .rolRm w count rm
  | .ror => .rorRm w count rm
  | .rcl => .rclRm w count rm
  | .rcr => .rcrRm w count rm
  | .shl => .shlRm w count rm
  | .shr => .shrRm w count rm
  | .sar => .sarRm w count rm

/-- The constructor of shift or rotate `op` in this form (45_shift_rotate R280). -/
def Instr.shiftRmImm8 (op : ShiftOp) (w : Width) (rm : RM) (imm : Byte) : Instr :=
  match op with
  | .rol => .rolRmImm8 w rm imm
  | .ror => .rorRmImm8 w rm imm
  | .rcl => .rclRmImm8 w rm imm
  | .rcr => .rcrRmImm8 w rm imm
  | .shl => .shlRmImm8 w rm imm
  | .shr => .shrRmImm8 w rm imm
  | .sar => .sarRmImm8 w rm imm

/-- The conditional jump on condition `c` (40_cond_jump R130). -/
def Instr.jcc (c : Cond) (rel : Byte) : Instr :=
  match c with
  | .o => .jo rel
  | .no => .jno rel
  | .b => .jb rel
  | .ae => .jae rel
  | .e => .je rel
  | .ne => .jne rel
  | .be => .jbe rel
  | .a => .ja rel
  | .s => .js rel
  | .ns => .jns rel
  | .p => .jp rel
  | .np => .jnp rel
  | .l => .jl rel
  | .ge => .jge rel
  | .le => .jle rel
  | .g => .jg rel

/-! ### The encoder -/

/-- The bytes of a well-formed instruction. A reserved encoding has no length (48_io_flags_misc R370): its bytes are the opcode
byte and, for a group member, the ModRM byte that makes it reserved. -/
def encode : Instr → List Byte
  | .jo rel => [Opcode.byte (.jcc .o), rel]
  | .jno rel => [Opcode.byte (.jcc .no), rel]
  | .jb rel => [Opcode.byte (.jcc .b), rel]
  | .jae rel => [Opcode.byte (.jcc .ae), rel]
  | .je rel => [Opcode.byte (.jcc .e), rel]
  | .jne rel => [Opcode.byte (.jcc .ne), rel]
  | .jbe rel => [Opcode.byte (.jcc .be), rel]
  | .ja rel => [Opcode.byte (.jcc .a), rel]
  | .js rel => [Opcode.byte (.jcc .s), rel]
  | .jns rel => [Opcode.byte (.jcc .ns), rel]
  | .jp rel => [Opcode.byte (.jcc .p), rel]
  | .jnp rel => [Opcode.byte (.jcc .np), rel]
  | .jl rel => [Opcode.byte (.jcc .l), rel]
  | .jge rel => [Opcode.byte (.jcc .ge), rel]
  | .jle rel => [Opcode.byte (.jcc .le), rel]
  | .jg rel => [Opcode.byte (.jcc .g), rel]
  | .movRmR w reg rm => Opcode.byte (.movRmR w) :: rmBytes reg rm
  | .movRRm w reg rm => Opcode.byte (.movRRm w) :: rmBytes reg rm
  | .movRm8Imm8 rm imm => Opcode.byte (.movRmImm .byte) :: (rmBytes 0 rm ++ [imm])
  | .movRm16Imm16 rm imm => Opcode.byte (.movRmImm .word) :: (rmBytes 0 rm ++ wordBytes imm)
  | .movR8Imm8 r imm => [Opcode.byte (.movR8Imm r), imm]
  | .movR16Imm16 r imm => Opcode.byte (.movR16Imm r) :: wordBytes imm
  | .movAccMoffs w addr => Opcode.byte (.movAccMoffs w) :: wordBytes addr
  | .movMoffsAcc w addr => Opcode.byte (.movMoffsAcc w) :: wordBytes addr
  | .movRm16Sreg sr rm => Opcode.byte .movRmSreg :: rmBytes sr.regNum rm
  | .movSregRm16 sr rm => Opcode.byte .movSregRm :: rmBytes sr.regNum rm
  | .pushR16 r => [Opcode.byte (.pushR r)]
  | .popR16 r => [Opcode.byte (.popR r)]
  | .pushSreg sr => [Opcode.byte (.pushSreg sr)]
  | .popEs => [Opcode.byte .popEs]
  | .popSs => [Opcode.byte .popSs]
  | .popDs => [Opcode.byte .popDs]
  | .pushRm16 rm => Opcode.byte .grp5 :: rmBytes 6 rm
  | .popRm16 rm => Opcode.byte .grp8F :: rmBytes 0 rm
  | .pushf => [Opcode.byte .pushf]
  | .popf => [Opcode.byte .popf]
  | .lahf => [Opcode.byte .lahf]
  | .sahf => [Opcode.byte .sahf]
  | .xchgAxR16 r => [Opcode.byte (.xchgAx r)]
  | .nop => [Opcode.byte (.xchgAx 0)]
  | .xchgRmR w reg rm => Opcode.byte (.xchgRmR w) :: rmBytes reg rm
  | .lea reg m => Opcode.byte .lea :: rmBytes reg (.mem m)
  | .les reg m => Opcode.byte .les :: rmBytes reg (.mem m)
  | .lds reg m => Opcode.byte .lds :: rmBytes reg (.mem m)
  | .xlat => [Opcode.byte .xlat]
  | .cbw => [Opcode.byte .cbw]
  | .cwd => [Opcode.byte .cwd]
  | .incR16 r => [Opcode.byte (.incR r)]
  | .decR16 r => [Opcode.byte (.decR r)]
  | .incRm w rm => Opcode.byte (incDecOpcode w) :: rmBytes 0 rm
  | .decRm w rm => Opcode.byte (incDecOpcode w) :: rmBytes 1 rm
  | .testRm8Imm8 rm imm => Opcode.byte (.grp3 .byte) :: (rmBytes 0 rm ++ [imm])
  | .testRm16Imm16 rm imm => Opcode.byte (.grp3 .word) :: (rmBytes 0 rm ++ wordBytes imm)
  | .notRm w rm => Opcode.byte (.grp3 w) :: rmBytes 2 rm
  | .negRm w rm => Opcode.byte (.grp3 w) :: rmBytes 3 rm
  | .mulRm w rm => Opcode.byte (.grp3 w) :: rmBytes 4 rm
  | .imulRm w rm => Opcode.byte (.grp3 w) :: rmBytes 5 rm
  | .divRm w rm => Opcode.byte (.grp3 w) :: rmBytes 6 rm
  | .idivRm w rm => Opcode.byte (.grp3 w) :: rmBytes 7 rm
  | .addRmR w d reg rm => Opcode.byte (.aluRmR .add w d) :: rmBytes reg rm
  | .addAlImm8 imm => [Opcode.byte (.aluAccImm .add .byte), imm]
  | .addAxImm16 imm => Opcode.byte (.aluAccImm .add .word) :: wordBytes imm
  | .addRm8Imm8 op82 rm imm => Opcode.byte (.grp1Imm8 op82) :: (rmBytes 0 rm ++ [imm])
  | .addRm16Imm16 rm imm => Opcode.byte .grp1Imm16 :: (rmBytes 0 rm ++ wordBytes imm)
  | .addRm16Simm8 rm imm => Opcode.byte .grp1Simm8 :: (rmBytes 0 rm ++ [imm])
  | .orRmR w d reg rm => Opcode.byte (.aluRmR .or w d) :: rmBytes reg rm
  | .orAlImm8 imm => [Opcode.byte (.aluAccImm .or .byte), imm]
  | .orAxImm16 imm => Opcode.byte (.aluAccImm .or .word) :: wordBytes imm
  | .orRm8Imm8 op82 rm imm => Opcode.byte (.grp1Imm8 op82) :: (rmBytes 1 rm ++ [imm])
  | .orRm16Imm16 rm imm => Opcode.byte .grp1Imm16 :: (rmBytes 1 rm ++ wordBytes imm)
  | .orRm16Simm8 rm imm => Opcode.byte .grp1Simm8 :: (rmBytes 1 rm ++ [imm])
  | .adcRmR w d reg rm => Opcode.byte (.aluRmR .adc w d) :: rmBytes reg rm
  | .adcAlImm8 imm => [Opcode.byte (.aluAccImm .adc .byte), imm]
  | .adcAxImm16 imm => Opcode.byte (.aluAccImm .adc .word) :: wordBytes imm
  | .adcRm8Imm8 op82 rm imm => Opcode.byte (.grp1Imm8 op82) :: (rmBytes 2 rm ++ [imm])
  | .adcRm16Imm16 rm imm => Opcode.byte .grp1Imm16 :: (rmBytes 2 rm ++ wordBytes imm)
  | .adcRm16Simm8 rm imm => Opcode.byte .grp1Simm8 :: (rmBytes 2 rm ++ [imm])
  | .sbbRmR w d reg rm => Opcode.byte (.aluRmR .sbb w d) :: rmBytes reg rm
  | .sbbAlImm8 imm => [Opcode.byte (.aluAccImm .sbb .byte), imm]
  | .sbbAxImm16 imm => Opcode.byte (.aluAccImm .sbb .word) :: wordBytes imm
  | .sbbRm8Imm8 op82 rm imm => Opcode.byte (.grp1Imm8 op82) :: (rmBytes 3 rm ++ [imm])
  | .sbbRm16Imm16 rm imm => Opcode.byte .grp1Imm16 :: (rmBytes 3 rm ++ wordBytes imm)
  | .sbbRm16Simm8 rm imm => Opcode.byte .grp1Simm8 :: (rmBytes 3 rm ++ [imm])
  | .andRmR w d reg rm => Opcode.byte (.aluRmR .and w d) :: rmBytes reg rm
  | .andAlImm8 imm => [Opcode.byte (.aluAccImm .and .byte), imm]
  | .andAxImm16 imm => Opcode.byte (.aluAccImm .and .word) :: wordBytes imm
  | .andRm8Imm8 op82 rm imm => Opcode.byte (.grp1Imm8 op82) :: (rmBytes 4 rm ++ [imm])
  | .andRm16Imm16 rm imm => Opcode.byte .grp1Imm16 :: (rmBytes 4 rm ++ wordBytes imm)
  | .andRm16Simm8 rm imm => Opcode.byte .grp1Simm8 :: (rmBytes 4 rm ++ [imm])
  | .subRmR w d reg rm => Opcode.byte (.aluRmR .sub w d) :: rmBytes reg rm
  | .subAlImm8 imm => [Opcode.byte (.aluAccImm .sub .byte), imm]
  | .subAxImm16 imm => Opcode.byte (.aluAccImm .sub .word) :: wordBytes imm
  | .subRm8Imm8 op82 rm imm => Opcode.byte (.grp1Imm8 op82) :: (rmBytes 5 rm ++ [imm])
  | .subRm16Imm16 rm imm => Opcode.byte .grp1Imm16 :: (rmBytes 5 rm ++ wordBytes imm)
  | .subRm16Simm8 rm imm => Opcode.byte .grp1Simm8 :: (rmBytes 5 rm ++ [imm])
  | .xorRmR w d reg rm => Opcode.byte (.aluRmR .xor w d) :: rmBytes reg rm
  | .xorAlImm8 imm => [Opcode.byte (.aluAccImm .xor .byte), imm]
  | .xorAxImm16 imm => Opcode.byte (.aluAccImm .xor .word) :: wordBytes imm
  | .xorRm8Imm8 op82 rm imm => Opcode.byte (.grp1Imm8 op82) :: (rmBytes 6 rm ++ [imm])
  | .xorRm16Imm16 rm imm => Opcode.byte .grp1Imm16 :: (rmBytes 6 rm ++ wordBytes imm)
  | .xorRm16Simm8 rm imm => Opcode.byte .grp1Simm8 :: (rmBytes 6 rm ++ [imm])
  | .cmpRmR w d reg rm => Opcode.byte (.aluRmR .cmp w d) :: rmBytes reg rm
  | .cmpAlImm8 imm => [Opcode.byte (.aluAccImm .cmp .byte), imm]
  | .cmpAxImm16 imm => Opcode.byte (.aluAccImm .cmp .word) :: wordBytes imm
  | .cmpRm8Imm8 op82 rm imm => Opcode.byte (.grp1Imm8 op82) :: (rmBytes 7 rm ++ [imm])
  | .cmpRm16Imm16 rm imm => Opcode.byte .grp1Imm16 :: (rmBytes 7 rm ++ wordBytes imm)
  | .cmpRm16Simm8 rm imm => Opcode.byte .grp1Simm8 :: (rmBytes 7 rm ++ [imm])
  | .testRmR w reg rm => Opcode.byte (.testRmR w) :: rmBytes reg rm
  | .testAlImm8 imm => [Opcode.byte (.testAccImm .byte), imm]
  | .testAxImm16 imm => Opcode.byte (.testAccImm .word) :: wordBytes imm
  | .movs w => [Opcode.byte (.movs w)]
  | .cmps w => [Opcode.byte (.cmps w)]
  | .stos w => [Opcode.byte (.stos w)]
  | .lods w => [Opcode.byte (.lods w)]
  | .scas w => [Opcode.byte (.scas w)]
  | .segOverride sr => [Opcode.byte (.segOverride sr)]
  | .rep mode => [Opcode.byte (.rep mode)]
  | .lock => [Opcode.byte .lock]
  | .rolRm w count rm => Opcode.byte (.grp2 w count) :: rmBytes 0 rm
  | .rolRmImm8 w rm imm => Opcode.byte (.grp2Imm w) :: (rmBytes 0 rm ++ [imm])
  | .rorRm w count rm => Opcode.byte (.grp2 w count) :: rmBytes 1 rm
  | .rorRmImm8 w rm imm => Opcode.byte (.grp2Imm w) :: (rmBytes 1 rm ++ [imm])
  | .rclRm w count rm => Opcode.byte (.grp2 w count) :: rmBytes 2 rm
  | .rclRmImm8 w rm imm => Opcode.byte (.grp2Imm w) :: (rmBytes 2 rm ++ [imm])
  | .rcrRm w count rm => Opcode.byte (.grp2 w count) :: rmBytes 3 rm
  | .rcrRmImm8 w rm imm => Opcode.byte (.grp2Imm w) :: (rmBytes 3 rm ++ [imm])
  | .shlRm w count rm => Opcode.byte (.grp2 w count) :: rmBytes 4 rm
  | .shlRmImm8 w rm imm => Opcode.byte (.grp2Imm w) :: (rmBytes 4 rm ++ [imm])
  | .shrRm w count rm => Opcode.byte (.grp2 w count) :: rmBytes 5 rm
  | .shrRmImm8 w rm imm => Opcode.byte (.grp2Imm w) :: (rmBytes 5 rm ++ [imm])
  | .sarRm w count rm => Opcode.byte (.grp2 w count) :: rmBytes 7 rm
  | .sarRmImm8 w rm imm => Opcode.byte (.grp2Imm w) :: (rmBytes 7 rm ++ [imm])
  | .loopne rel => [Opcode.byte .loopne, rel]
  | .loope rel => [Opcode.byte .loope, rel]
  | .loop rel => [Opcode.byte .loop, rel]
  | .jcxz rel => [Opcode.byte .jcxz, rel]
  | .jmpRel8 rel => [Opcode.byte .jmpRel8, rel]
  | .jmpRel16 rel => Opcode.byte .jmpRel16 :: wordBytes rel
  | .jmpPtr off seg => Opcode.byte .jmpPtr :: (wordBytes off ++ wordBytes seg)
  | .jmpRm16 rm => Opcode.byte .grp5 :: rmBytes 4 rm
  | .jmpM1616 m => Opcode.byte .grp5 :: rmBytes 5 (.mem m)
  | .callRel16 rel => Opcode.byte .callRel16 :: wordBytes rel
  | .callPtr off seg => Opcode.byte .callPtr :: (wordBytes off ++ wordBytes seg)
  | .callRm16 rm => Opcode.byte .grp5 :: rmBytes 2 rm
  | .callM1616 m => Opcode.byte .grp5 :: rmBytes 3 (.mem m)
  | .ret => [Opcode.byte .ret]
  | .retImm16 imm => Opcode.byte .retImm16 :: wordBytes imm
  | .retf => [Opcode.byte .retf]
  | .retfImm16 imm => Opcode.byte .retfImm16 :: wordBytes imm
  | .int vector => [Opcode.byte .int, vector]
  | .int3 => [Opcode.byte .int3]
  | .into => [Opcode.byte .into]
  | .iret => [Opcode.byte .iret]
  | .daa => [Opcode.byte .daa]
  | .das => [Opcode.byte .das]
  | .aaa => [Opcode.byte .aaa]
  | .aas => [Opcode.byte .aas]
  | .aam base => [Opcode.byte .aam, base]
  | .aad base => [Opcode.byte .aad, base]
  | .inAccImm8 w port => [Opcode.byte (.inImm w), port]
  | .inAccDx w => [Opcode.byte (.inDx w)]
  | .outImm8Acc w port => [Opcode.byte (.outImm w), port]
  | .outDxAcc w => [Opcode.byte (.outDx w)]
  | .clc => [Opcode.byte .clc]
  | .stc => [Opcode.byte .stc]
  | .cli => [Opcode.byte .cli]
  | .sti => [Opcode.byte .sti]
  | .cld => [Opcode.byte .cld]
  | .std => [Opcode.byte .std]
  | .cmc => [Opcode.byte .cmc]
  | .hlt => [Opcode.byte .hlt]
  | .wait => [Opcode.byte .wait]
  | .esc x reg rm => Opcode.byte (.esc x) :: rmBytes reg rm
  | .putchar => [Opcode.byte .ext, 0x00]
  | .getTime => [Opcode.byte .ext, 0x01]
  | .diskRead => [Opcode.byte .ext, 0x02]
  | .diskWrite => [Opcode.byte .ext, 0x03]
  | .reserved0F sub => [Opcode.byte .ext, sub]
  | .reserved60to6F x => [Opcode.byte (.reserved60to6F x)]
  | .reserved8C m => [Opcode.byte .movRmSreg, m.byte]
  | .reserved8D reg rm => [Opcode.byte .lea, ModRM.byte ⟨3, reg, rm⟩]
  | .reserved8E m => [Opcode.byte .movSregRm, m.byte]
  | .reserved8F m => [Opcode.byte .grp8F, m.byte]
  | .reservedC0C1 w mod rm => [Opcode.byte (.grp2Imm w), ModRM.byte ⟨mod, 6, rm⟩]
  | .reservedC4 reg rm => [Opcode.byte .les, ModRM.byte ⟨3, reg, rm⟩]
  | .reservedC5 reg rm => [Opcode.byte .lds, ModRM.byte ⟨3, reg, rm⟩]
  | .reservedC6 m => [Opcode.byte (.movRmImm .byte), m.byte]
  | .reservedC7 m => [Opcode.byte (.movRmImm .word), m.byte]
  | .reservedC8C9 x => [Opcode.byte (.reservedC8C9 x)]
  | .reservedD0toD3 w count mod rm => [Opcode.byte (.grp2 w count), ModRM.byte ⟨mod, 6, rm⟩]
  | .reservedD6 => [Opcode.byte .reservedD6]
  | .reservedF1 => [Opcode.byte .reservedF1]
  | .reservedF6F7 w mod rm => [Opcode.byte (.grp3 w), ModRM.byte ⟨mod, 1, rm⟩]
  | .reservedFE m => [Opcode.byte .grp4, m.byte]
  | .reservedFF3 rm => [Opcode.byte .grp5, ModRM.byte ⟨3, 3, rm⟩]
  | .reservedFF5 rm => [Opcode.byte .grp5, ModRM.byte ⟨3, 5, rm⟩]
  | .reservedFF7 mod rm => [Opcode.byte .grp5, ModRM.byte ⟨mod, 7, rm⟩]

/-- The length `L` of an instruction, by its format (30_encoding R91, R98). -/
def Instr.length : Instr → Nat
  | .jo _ => 2
  | .jno _ => 2
  | .jb _ => 2
  | .jae _ => 2
  | .je _ => 2
  | .jne _ => 2
  | .jbe _ => 2
  | .ja _ => 2
  | .js _ => 2
  | .jns _ => 2
  | .jp _ => 2
  | .jnp _ => 2
  | .jl _ => 2
  | .jge _ => 2
  | .jle _ => 2
  | .jg _ => 2
  | .movRmR _ _ rm => 2 + rm.dispLen
  | .movRRm _ _ rm => 2 + rm.dispLen
  | .movRm8Imm8 rm _ => 3 + rm.dispLen
  | .movRm16Imm16 rm _ => 4 + rm.dispLen
  | .movR8Imm8 _ _ => 2
  | .movR16Imm16 _ _ => 3
  | .movAccMoffs _ _ => 3
  | .movMoffsAcc _ _ => 3
  | .movRm16Sreg _ rm => 2 + rm.dispLen
  | .movSregRm16 _ rm => 2 + rm.dispLen
  | .pushR16 _ => 1
  | .popR16 _ => 1
  | .pushSreg _ => 1
  | .popEs => 1
  | .popSs => 1
  | .popDs => 1
  | .pushRm16 rm => 2 + rm.dispLen
  | .popRm16 rm => 2 + rm.dispLen
  | .pushf => 1
  | .popf => 1
  | .lahf => 1
  | .sahf => 1
  | .xchgAxR16 _ => 1
  | .nop => 1
  | .xchgRmR _ _ rm => 2 + rm.dispLen
  | .lea _ m => 2 + m.dispLen
  | .les _ m => 2 + m.dispLen
  | .lds _ m => 2 + m.dispLen
  | .xlat => 1
  | .cbw => 1
  | .cwd => 1
  | .incR16 _ => 1
  | .decR16 _ => 1
  | .incRm _ rm => 2 + rm.dispLen
  | .decRm _ rm => 2 + rm.dispLen
  | .testRm8Imm8 rm _ => 3 + rm.dispLen
  | .testRm16Imm16 rm _ => 4 + rm.dispLen
  | .notRm _ rm => 2 + rm.dispLen
  | .negRm _ rm => 2 + rm.dispLen
  | .mulRm _ rm => 2 + rm.dispLen
  | .imulRm _ rm => 2 + rm.dispLen
  | .divRm _ rm => 2 + rm.dispLen
  | .idivRm _ rm => 2 + rm.dispLen
  | .addRmR _ _ _ rm => 2 + rm.dispLen
  | .addAlImm8 _ => 2
  | .addAxImm16 _ => 3
  | .addRm8Imm8 _ rm _ => 3 + rm.dispLen
  | .addRm16Imm16 rm _ => 4 + rm.dispLen
  | .addRm16Simm8 rm _ => 3 + rm.dispLen
  | .orRmR _ _ _ rm => 2 + rm.dispLen
  | .orAlImm8 _ => 2
  | .orAxImm16 _ => 3
  | .orRm8Imm8 _ rm _ => 3 + rm.dispLen
  | .orRm16Imm16 rm _ => 4 + rm.dispLen
  | .orRm16Simm8 rm _ => 3 + rm.dispLen
  | .adcRmR _ _ _ rm => 2 + rm.dispLen
  | .adcAlImm8 _ => 2
  | .adcAxImm16 _ => 3
  | .adcRm8Imm8 _ rm _ => 3 + rm.dispLen
  | .adcRm16Imm16 rm _ => 4 + rm.dispLen
  | .adcRm16Simm8 rm _ => 3 + rm.dispLen
  | .sbbRmR _ _ _ rm => 2 + rm.dispLen
  | .sbbAlImm8 _ => 2
  | .sbbAxImm16 _ => 3
  | .sbbRm8Imm8 _ rm _ => 3 + rm.dispLen
  | .sbbRm16Imm16 rm _ => 4 + rm.dispLen
  | .sbbRm16Simm8 rm _ => 3 + rm.dispLen
  | .andRmR _ _ _ rm => 2 + rm.dispLen
  | .andAlImm8 _ => 2
  | .andAxImm16 _ => 3
  | .andRm8Imm8 _ rm _ => 3 + rm.dispLen
  | .andRm16Imm16 rm _ => 4 + rm.dispLen
  | .andRm16Simm8 rm _ => 3 + rm.dispLen
  | .subRmR _ _ _ rm => 2 + rm.dispLen
  | .subAlImm8 _ => 2
  | .subAxImm16 _ => 3
  | .subRm8Imm8 _ rm _ => 3 + rm.dispLen
  | .subRm16Imm16 rm _ => 4 + rm.dispLen
  | .subRm16Simm8 rm _ => 3 + rm.dispLen
  | .xorRmR _ _ _ rm => 2 + rm.dispLen
  | .xorAlImm8 _ => 2
  | .xorAxImm16 _ => 3
  | .xorRm8Imm8 _ rm _ => 3 + rm.dispLen
  | .xorRm16Imm16 rm _ => 4 + rm.dispLen
  | .xorRm16Simm8 rm _ => 3 + rm.dispLen
  | .cmpRmR _ _ _ rm => 2 + rm.dispLen
  | .cmpAlImm8 _ => 2
  | .cmpAxImm16 _ => 3
  | .cmpRm8Imm8 _ rm _ => 3 + rm.dispLen
  | .cmpRm16Imm16 rm _ => 4 + rm.dispLen
  | .cmpRm16Simm8 rm _ => 3 + rm.dispLen
  | .testRmR _ _ rm => 2 + rm.dispLen
  | .testAlImm8 _ => 2
  | .testAxImm16 _ => 3
  | .movs _ => 1
  | .cmps _ => 1
  | .stos _ => 1
  | .lods _ => 1
  | .scas _ => 1
  | .segOverride _ => 1
  | .rep _ => 1
  | .lock => 1
  | .rolRm _ _ rm => 2 + rm.dispLen
  | .rolRmImm8 _ rm _ => 3 + rm.dispLen
  | .rorRm _ _ rm => 2 + rm.dispLen
  | .rorRmImm8 _ rm _ => 3 + rm.dispLen
  | .rclRm _ _ rm => 2 + rm.dispLen
  | .rclRmImm8 _ rm _ => 3 + rm.dispLen
  | .rcrRm _ _ rm => 2 + rm.dispLen
  | .rcrRmImm8 _ rm _ => 3 + rm.dispLen
  | .shlRm _ _ rm => 2 + rm.dispLen
  | .shlRmImm8 _ rm _ => 3 + rm.dispLen
  | .shrRm _ _ rm => 2 + rm.dispLen
  | .shrRmImm8 _ rm _ => 3 + rm.dispLen
  | .sarRm _ _ rm => 2 + rm.dispLen
  | .sarRmImm8 _ rm _ => 3 + rm.dispLen
  | .loopne _ => 2
  | .loope _ => 2
  | .loop _ => 2
  | .jcxz _ => 2
  | .jmpRel8 _ => 2
  | .jmpRel16 _ => 3
  | .jmpPtr _ _ => 5
  | .jmpRm16 rm => 2 + rm.dispLen
  | .jmpM1616 m => 2 + m.dispLen
  | .callRel16 _ => 3
  | .callPtr _ _ => 5
  | .callRm16 rm => 2 + rm.dispLen
  | .callM1616 m => 2 + m.dispLen
  | .ret => 1
  | .retImm16 _ => 3
  | .retf => 1
  | .retfImm16 _ => 3
  | .int _ => 2
  | .int3 => 1
  | .into => 1
  | .iret => 1
  | .daa => 1
  | .das => 1
  | .aaa => 1
  | .aas => 1
  | .aam _ => 2
  | .aad _ => 2
  | .inAccImm8 _ _ => 2
  | .inAccDx _ => 1
  | .outImm8Acc _ _ => 2
  | .outDxAcc _ => 1
  | .clc => 1
  | .stc => 1
  | .cli => 1
  | .sti => 1
  | .cld => 1
  | .std => 1
  | .cmc => 1
  | .hlt => 1
  | .wait => 1
  | .esc _ _ rm => 2 + rm.dispLen
  | .putchar => 2
  | .getTime => 2
  | .diskRead => 2
  | .diskWrite => 2
  | .reserved0F _ => 2
  | .reserved60to6F _ => 1
  | .reserved8C _ => 2
  | .reserved8D _ _ => 2
  | .reserved8E _ => 2
  | .reserved8F _ => 2
  | .reservedC0C1 _ _ _ => 2
  | .reservedC4 _ _ => 2
  | .reservedC5 _ _ => 2
  | .reservedC6 _ => 2
  | .reservedC7 _ => 2
  | .reservedC8C9 _ => 1
  | .reservedD0toD3 _ _ _ _ => 2
  | .reservedD6 => 1
  | .reservedF1 => 1
  | .reservedF6F7 _ _ _ => 2
  | .reservedFE _ => 2
  | .reservedFF3 _ => 2
  | .reservedFF5 _ => 2
  | .reservedFF7 _ _ => 2

/-! ### The decoder -/

/-- Why bytes do not decode: they end before the instruction does. Every sequence of six bytes or more decodes, a reserved
encoding to its own constructor. -/
inductive DecodeError where
  | truncated
  deriving DecidableEq, Repr

/-- An instruction and the bytes after it, or why there is none. -/
abbrev Decoded := Except DecodeError (Instr × List Byte)

/-- The next byte. -/
def takeByte (bs : List Byte) (k : Byte → List Byte → Decoded) : Decoded :=
  match bs with
  | [] => .error .truncated
  | b :: rest => k b rest

/-- The next word, low byte first (30_encoding R91). -/
def takeWord (bs : List Byte) (k : Word → List Byte → Decoded) : Decoded :=
  takeByte bs fun lo rest => takeByte rest fun hi rest => k (hi ++ lo) rest

/-- The ModRM byte. -/
def takeModRM (bs : List Byte) (k : ModRM → List Byte → Decoded) : Decoded :=
  takeByte bs fun b rest => k (ModRM.ofByte b) rest

/-- The r/m operand of a ModRM byte, with its displacement (30_encoding R94, R95). -/
def takeRM (m : ModRM) (bs : List Byte) (k : RM → List Byte → Decoded) : Decoded :=
  match m.mod with
  | 0 =>
    if m.rm = 6 then takeWord bs fun a rest => k (.mem (.direct a)) rest
    else k (.mem (.base (AddrForm.ofNum m.rm))) bs
  | 1 => takeByte bs fun d rest => k (.mem (.disp8 (AddrForm.ofNum m.rm) d)) rest
  | 2 => takeWord bs fun d rest => k (.mem (.disp16 (AddrForm.ofNum m.rm) d)) rest
  | 3 => k (.reg m.rm) bs

/-- ModRM byte and r/m operand. -/
def takeRegRM (bs : List Byte) (k : RegNum → RM → List Byte → Decoded) : Decoded :=
  takeModRM bs fun m rest => takeRM m rest fun rm rest => k m.reg rm rest

/-- ModRM byte and memory operand; `mod = 3` is the reserved instruction `onReg reg rm`. -/
def takeRegMem (bs : List Byte) (onReg : RegNum → RegNum → Instr) (k : RegNum → MemOperand → List Byte → Decoded) : Decoded :=
  takeRegRM bs fun reg rm rest =>
    match rm with
    | .reg r => .ok (onReg reg r, rest)
    | .mem m => k reg m rest

/-- The `0F` escape: the sub-code (48_io_flags_misc R364, R369). -/
def decodeExt (sub : Byte) : Instr :=
  if sub = 0 then .putchar
  else if sub = 1 then .getTime
  else if sub = 2 then .diskRead
  else if sub = 3 then .diskWrite
  else .reserved0F sub

/-- Group 2, `C0 C1` (30_encoding R103). -/
def decodeGrp2Imm (w : Width) (m : ModRM) (bs : List Byte) : Decoded :=
  match ShiftOp.ofRegNum m.reg with
  | none => .ok (.reservedC0C1 w m.mod m.rm, bs)
  | some op => takeRM m bs fun rm rest => takeByte rest fun imm rest => .ok (.shiftRmImm8 op w rm imm, rest)

/-- Group 2, `D0..D3` (30_encoding R103). -/
def decodeGrp2 (w : Width) (count : ShiftCount) (m : ModRM) (bs : List Byte) : Decoded :=
  match ShiftOp.ofRegNum m.reg with
  | none => .ok (.reservedD0toD3 w count m.mod m.rm, bs)
  | some op => takeRM m bs fun rm rest => .ok (.shiftRm op w count rm, rest)

/-- Group 3, `F6 F7` (30_encoding R103, 42_unary_muldiv R200). -/
def decodeGrp3 (w : Width) (m : ModRM) (bs : List Byte) : Decoded :=
  match m.reg with
  | 0 =>
    takeRM m bs fun rm rest =>
      match w with
      | .byte => takeByte rest fun imm rest => .ok (.testRm8Imm8 rm imm, rest)
      | .word => takeWord rest fun imm rest => .ok (.testRm16Imm16 rm imm, rest)
  | 1 => .ok (.reservedF6F7 w m.mod m.rm, bs)
  | 2 => takeRM m bs fun rm rest => .ok (.notRm w rm, rest)
  | 3 => takeRM m bs fun rm rest => .ok (.negRm w rm, rest)
  | 4 => takeRM m bs fun rm rest => .ok (.mulRm w rm, rest)
  | 5 => takeRM m bs fun rm rest => .ok (.imulRm w rm, rest)
  | 6 => takeRM m bs fun rm rest => .ok (.divRm w rm, rest)
  | 7 => takeRM m bs fun rm rest => .ok (.idivRm w rm, rest)

/-- Group 4, `FE` (30_encoding R103). -/
def decodeGrp4 (m : ModRM) (bs : List Byte) : Decoded :=
  if m.reg = 0 then takeRM m bs fun rm rest => .ok (.incRm .byte rm, rest)
  else if m.reg = 1 then takeRM m bs fun rm rest => .ok (.decRm .byte rm, rest)
  else .ok (.reservedFE m, bs)

/-- Group 5, `FF` (30_encoding R103). -/
def decodeGrp5 (m : ModRM) (bs : List Byte) : Decoded :=
  match m.reg with
  | 0 => takeRM m bs fun rm rest => .ok (.incRm .word rm, rest)
  | 1 => takeRM m bs fun rm rest => .ok (.decRm .word rm, rest)
  | 2 => takeRM m bs fun rm rest => .ok (.callRm16 rm, rest)
  | 3 =>
    takeRM m bs fun rm rest =>
      match rm with
      | .reg r => .ok (.reservedFF3 r, rest)
      | .mem m => .ok (.callM1616 m, rest)
  | 4 => takeRM m bs fun rm rest => .ok (.jmpRm16 rm, rest)
  | 5 =>
    takeRM m bs fun rm rest =>
      match rm with
      | .reg r => .ok (.reservedFF5 r, rest)
      | .mem m => .ok (.jmpM1616 m, rest)
  | 6 => takeRM m bs fun rm rest => .ok (.pushRm16 rm, rest)
  | 7 => .ok (.reservedFF7 m.mod m.rm, bs)

/-- The rest of an instruction after its first byte (30_encoding R91, R97, R102). -/
def decodeBody (op : Opcode) (bs : List Byte) : Decoded :=
  match op with
  | .aluRmR a w d => takeRegRM bs fun reg rm rest => .ok (.aluRmR a w d reg rm, rest)
  | .aluAccImm a .byte => takeByte bs fun imm rest => .ok (.aluAlImm8 a imm, rest)
  | .aluAccImm a .word => takeWord bs fun imm rest => .ok (.aluAxImm16 a imm, rest)
  | .pushSreg sr => .ok (.pushSreg sr, bs)
  | .popEs => .ok (.popEs, bs)
  | .popSs => .ok (.popSs, bs)
  | .popDs => .ok (.popDs, bs)
  | .ext => takeByte bs fun sub rest => .ok (decodeExt sub, rest)
  | .segOverride sr => .ok (.segOverride sr, bs)
  | .daa => .ok (.daa, bs)
  | .das => .ok (.das, bs)
  | .aaa => .ok (.aaa, bs)
  | .aas => .ok (.aas, bs)
  | .incR r => .ok (.incR16 r, bs)
  | .decR r => .ok (.decR16 r, bs)
  | .pushR r => .ok (.pushR16 r, bs)
  | .popR r => .ok (.popR16 r, bs)
  | .reserved60to6F x => .ok (.reserved60to6F x, bs)
  | .jcc c => takeByte bs fun rel rest => .ok (.jcc c rel, rest)
  | .grp1Imm8 op82 =>
    takeRegRM bs fun reg rm rest => takeByte rest fun imm rest => .ok (.aluRm8Imm8 (AluOp.ofRegNum reg) op82 rm imm, rest)
  | .grp1Imm16 =>
    takeRegRM bs fun reg rm rest => takeWord rest fun imm rest => .ok (.aluRm16Imm16 (AluOp.ofRegNum reg) rm imm, rest)
  | .grp1Simm8 =>
    takeRegRM bs fun reg rm rest => takeByte rest fun imm rest => .ok (.aluRm16Simm8 (AluOp.ofRegNum reg) rm imm, rest)
  | .testRmR w => takeRegRM bs fun reg rm rest => .ok (.testRmR w reg rm, rest)
  | .xchgRmR w => takeRegRM bs fun reg rm rest => .ok (.xchgRmR w reg rm, rest)
  | .movRmR w => takeRegRM bs fun reg rm rest => .ok (.movRmR w reg rm, rest)
  | .movRRm w => takeRegRM bs fun reg rm rest => .ok (.movRRm w reg rm, rest)
  | .movRmSreg =>
    takeModRM bs fun m rest =>
      match SReg.ofRegNum m.reg with
      | none => .ok (.reserved8C m, rest)
      | some sr => takeRM m rest fun rm rest => .ok (.movRm16Sreg sr rm, rest)
  | .lea => takeRegMem bs .reserved8D fun reg m rest => .ok (.lea reg m, rest)
  | .movSregRm =>
    takeModRM bs fun m rest =>
      match SReg.ofRegNum m.reg with
      | none => .ok (.reserved8E m, rest)
      | some sr => takeRM m rest fun rm rest => .ok (.movSregRm16 sr rm, rest)
  | .grp8F =>
    takeModRM bs fun m rest =>
      if m.reg = 0 then takeRM m rest fun rm rest => .ok (.popRm16 rm, rest) else .ok (.reserved8F m, rest)
  | .xchgAx r => .ok (if r = 0 then .nop else .xchgAxR16 r, bs)
  | .cbw => .ok (.cbw, bs)
  | .cwd => .ok (.cwd, bs)
  | .callPtr => takeWord bs fun off rest => takeWord rest fun seg rest => .ok (.callPtr off seg, rest)
  | .wait => .ok (.wait, bs)
  | .pushf => .ok (.pushf, bs)
  | .popf => .ok (.popf, bs)
  | .sahf => .ok (.sahf, bs)
  | .lahf => .ok (.lahf, bs)
  | .movAccMoffs w => takeWord bs fun a rest => .ok (.movAccMoffs w a, rest)
  | .movMoffsAcc w => takeWord bs fun a rest => .ok (.movMoffsAcc w a, rest)
  | .movs w => .ok (.movs w, bs)
  | .cmps w => .ok (.cmps w, bs)
  | .testAccImm .byte => takeByte bs fun imm rest => .ok (.testAlImm8 imm, rest)
  | .testAccImm .word => takeWord bs fun imm rest => .ok (.testAxImm16 imm, rest)
  | .stos w => .ok (.stos w, bs)
  | .lods w => .ok (.lods w, bs)
  | .scas w => .ok (.scas w, bs)
  | .movR8Imm r => takeByte bs fun imm rest => .ok (.movR8Imm8 r imm, rest)
  | .movR16Imm r => takeWord bs fun imm rest => .ok (.movR16Imm16 r imm, rest)
  | .grp2Imm w => takeModRM bs fun m rest => decodeGrp2Imm w m rest
  | .retImm16 => takeWord bs fun imm rest => .ok (.retImm16 imm, rest)
  | .ret => .ok (.ret, bs)
  | .les => takeRegMem bs .reservedC4 fun reg m rest => .ok (.les reg m, rest)
  | .lds => takeRegMem bs .reservedC5 fun reg m rest => .ok (.lds reg m, rest)
  | .movRmImm .byte =>
    takeModRM bs fun m rest =>
      if m.reg = 0 then takeRM m rest fun rm rest => takeByte rest fun imm rest => .ok (.movRm8Imm8 rm imm, rest)
      else .ok (.reservedC6 m, rest)
  | .movRmImm .word =>
    takeModRM bs fun m rest =>
      if m.reg = 0 then takeRM m rest fun rm rest => takeWord rest fun imm rest => .ok (.movRm16Imm16 rm imm, rest)
      else .ok (.reservedC7 m, rest)
  | .reservedC8C9 x => .ok (.reservedC8C9 x, bs)
  | .retfImm16 => takeWord bs fun imm rest => .ok (.retfImm16 imm, rest)
  | .retf => .ok (.retf, bs)
  | .int3 => .ok (.int3, bs)
  | .int => takeByte bs fun v rest => .ok (.int v, rest)
  | .into => .ok (.into, bs)
  | .iret => .ok (.iret, bs)
  | .grp2 w count => takeModRM bs fun m rest => decodeGrp2 w count m rest
  | .aam => takeByte bs fun v rest => .ok (.aam v, rest)
  | .aad => takeByte bs fun v rest => .ok (.aad v, rest)
  | .reservedD6 => .ok (.reservedD6, bs)
  | .xlat => .ok (.xlat, bs)
  | .esc x => takeRegRM bs fun reg rm rest => .ok (.esc x reg rm, rest)
  | .loopne => takeByte bs fun rel rest => .ok (.loopne rel, rest)
  | .loope => takeByte bs fun rel rest => .ok (.loope rel, rest)
  | .loop => takeByte bs fun rel rest => .ok (.loop rel, rest)
  | .jcxz => takeByte bs fun rel rest => .ok (.jcxz rel, rest)
  | .inImm w => takeByte bs fun p rest => .ok (.inAccImm8 w p, rest)
  | .outImm w => takeByte bs fun p rest => .ok (.outImm8Acc w p, rest)
  | .callRel16 => takeWord bs fun rel rest => .ok (.callRel16 rel, rest)
  | .jmpRel16 => takeWord bs fun rel rest => .ok (.jmpRel16 rel, rest)
  | .jmpPtr => takeWord bs fun off rest => takeWord rest fun seg rest => .ok (.jmpPtr off seg, rest)
  | .jmpRel8 => takeByte bs fun rel rest => .ok (.jmpRel8 rel, rest)
  | .inDx w => .ok (.inAccDx w, bs)
  | .outDx w => .ok (.outDxAcc w, bs)
  | .lock => .ok (.lock, bs)
  | .reservedF1 => .ok (.reservedF1, bs)
  | .rep mode => .ok (.rep mode, bs)
  | .hlt => .ok (.hlt, bs)
  | .cmc => .ok (.cmc, bs)
  | .grp3 w => takeModRM bs fun m rest => decodeGrp3 w m rest
  | .clc => .ok (.clc, bs)
  | .stc => .ok (.stc, bs)
  | .cli => .ok (.cli, bs)
  | .sti => .ok (.sti, bs)
  | .cld => .ok (.cld, bs)
  | .std => .ok (.std, bs)
  | .grp4 => takeModRM bs fun m rest => decodeGrp4 m rest
  | .grp5 => takeModRM bs fun m rest => decodeGrp5 m rest

/-- The instruction at the start of a sequence of bytes, and the bytes after it (30_encoding R90, R98). -/
def decode (bs : List Byte) : Decoded :=
  takeByte bs fun b rest => decodeBody (Opcode.ofByte b) rest

/-- The first six bytes of an instruction whose bits are numbered as spec/opcode_table.json numbers them: a row's value is
`byte0 * 256 + byte1` (head of 30_encoding), so byte 0 is bits 15..8 and byte 1 bits 7..0; with eight bits or fewer the value is
byte 0. Later 16-bit words, high byte first as well, count on from bit 16. Log 18. -/
def tableWordBytes (nbits w : Nat) : List Byte :=
  if nbits ≤ 8 then [BitVec.ofNat 8 w, 0, 0, 0, 0, 0]
  else
    [BitVec.ofNat 8 (w / 2 ^ 8), BitVec.ofNat 8 w, BitVec.ofNat 8 (w / 2 ^ 24), BitVec.ofNat 8 (w / 2 ^ 16),
      BitVec.ofNat 8 (w / 2 ^ 40), BitVec.ofNat 8 (w / 2 ^ 32)]

/-- The instruction the decoder reads from an instruction of the opcode table. -/
def decodeTableWord (nbits w : Nat) : Option Instr :=
  match decode (tableWordBytes nbits w) with
  | .ok (i, _) => some i
  | .error _ => none

end Sys2Proof
end

