-- ==== Sys2Proof/Machine/State.lean ====
section
/-! DEFINITION. The state of the machine as plain data (10_state R20), its state after reset (R38), and the reasons a step can
stop. The register file is a page of memory (R25); here each register and each flag is stored once, in a named field, and the
page is a view of these fields (Machine/Ops.lean; log 1). -/

namespace Sys2Proof.Machine

/-- The twelve 16-bit registers that an instruction can name, slots 0 to 11 of the register page (10_state R21, R23). -/
inductive Reg where
  | ax | cx | dx | bx | sp | bp | si | di | es | cs | ss | ds
  deriving DecidableEq, Repr

/-- The 16-bit slots of the register page that hold a value (10_state R21). `ZERO`, slot 12, is hard-wired to 0 (R24) and has no
field. -/
structure Regs where
  AX : Word
  CX : Word
  DX : Word
  BX : Word
  SP : Word
  BP : Word
  SI : Word
  DI : Word
  ES : Word
  CS : Word
  SS : Word
  DS : Word
  SCRATCH : Word
  deriving DecidableEq, Repr

/-- The nine flag cells, each 0 or 1 (10_state R26, R36). -/
structure Flags where
  CF : Bool
  PF : Bool
  AF : Bool
  ZF : Bool
  SF : Bool
  TF : Bool
  IF : Bool
  DF : Bool
  OF : Bool
  deriving DecidableEq, Repr

/-- A byte array as a list of cells in canonical form (`Memory.wf`, Machine/Memory.lean): addresses strictly rising, and no cell
that holds `Config.unlisted`. -/
abbrev Memory := List Host.Cell

/-- `RunState` (10_state R33). -/
inductive RunState where
  | running | halted | runaway
  deriving DecidableEq, Repr

/-- The operation of a call of the disk hook (60_exceptions R423). -/
inductive DiskOp where
  | read | write
  deriving DecidableEq, Repr

/-- One call of a host hook, with the values the core passes (60_exceptions R420 to R423). The model's own record: log 17. -/
inductive HostCall where
  /-- `CharOut(b)`. -/
  | charOut (b : Byte)
  /-- `Clock()`. -/
  | clock
  /-- `Disk(drive, op, offset, len)` with the buffer address; on a write, the bytes of the buffer. -/
  | disk (drive : Byte) (op : DiskOp) (buffer : Addr) (offset : Nat) (len : Word) (data : List Byte)
  deriving DecidableEq, Repr

/-- The open numeric parameters of the step (00_scope R5, 10_state R39, U12), held as data that no step changes, so that a
statement about every state holds for every value of them. Log 13, log 14, log 15. -/
structure Params where
  /-- `TICK_PERIOD`, a positive integer. -/
  tickPeriod : Nat
  /-- `RTC_MS_ADDR`. -/
  rtcMsAddr : Addr
  /-- `RTC_MS_LEN`, in bytes. -/
  rtcMsLen : Nat
  /-- The bytes of `Mem` that the instance of `PortDevice` declares it may modify (60_exceptions R413). Log 14. -/
  deviceBytes : List Addr
  /-- Whether the instance of `PortDevice` acts at accesses of plain ports too, where 20_memory R75 calls it and 10_state R30 lets nothing
  else change. Log 14. -/
  deviceEverywhere : Bool
  deriving DecidableEq, Repr

/-- The state of the machine (10_state R20). -/
structure State where
  regs : Regs
  flags : Flags
  /-- `IP`, held outside memory (10_state R29). -/
  IP : Word
  /-- `Mem` outside the cells of the register page that `regs` and `flags` hold (20_memory R60, 10_state R25). -/
  mem : Memory
  /-- `Ports` (10_state R30) but for the special ports. -/
  ports : Memory
  /-- The bytes last stored into the special ports of `Ports`, in the order of `Config.specialPorts` (10_state R30). What such a port
  holds is a free value (20_memory R76). Log 5, log 14. -/
  specialPorts : List Byte
  /-- `SegOvrCnt` (10_state R31). -/
  segOvrCnt : Nat
  /-- `SegOvrReg`, as the segment register of that slot (10_state R31). -/
  segOvrReg : SReg
  /-- `RepCnt` (10_state R31). -/
  repCnt : Nat
  /-- `RepMode` (10_state R31). -/
  repMode : RepMode
  /-- `TrapShadow` (10_state R31). -/
  trapShadow : Bool
  /-- `TickPending` (10_state R31). -/
  tickPending : Bool
  /-- `TickCounter` (10_state R31, 60_exceptions R412). -/
  tickCounter : Nat
  /-- `RunState` (10_state R33). -/
  runState : RunState
  /-- The private state of `PortDevice` (60_exceptions R413), which only uninterpreted functions read. Log 14. -/
  portDevice : Nat
  /-- The open parameters. -/
  params : Params
  /-- The model's own counter of draws: which draw the next free value is. Log 7. -/
  draws : Nat
  /-- The model's own list of the calls of hooks made so far, oldest first. Log 17. -/
  hostCalls : List HostCall
  deriving DecidableEq, Repr

/-- Why the machine stops. -/
inductive Fault where
  /-- `SetIP` outside 0..0xFFFF, and every step of a machine whose `RunState` is `Runaway` (10_state R29, 60_exceptions R417, U8:
  stuck, the rest of the state unspecified). Safe: nothing is claimed about the state. Log 9. -/
  | runaway
  /-- A step of a machine that has halted (60_exceptions R418: no further cycle is performed). Safe. Log 10. -/
  | halted
  deriving DecidableEq, Repr

/-- Why the model gives no meaning. -/
inductive Refusal where
  /-- An instruction without a meaning yet; raised by no meaning. Safe. -/
  | notModelled (mnemonic : String)
  /-- A reserved encoding, raised by the instructions named `reserved…` (30_encoding R104, U13: refuse). Safe. Log 11. -/
  | reservedEncoding
  /-- A store that would break an invariant of the register page, raised by `State.writeMem` (10_state R36, U14: refuse). Safe.
  Log 12. -/
  | breaksPageInvariant
  /-- The fetched bytes do not decode. Raised by `step`, never: six bytes always decode. Safe. Log 24. -/
  | truncatedFetch
  deriving DecidableEq, Repr

/-- What a step, and each part of one, answers. -/
abbrev Result := Host.Outcome State Fault Refusal

/-- The registers at launch (10_state R38): `CS`, `AX` and `DL` as the spec gives them, the others at the value log 4 names. -/
def Regs.reset : Regs :=
  { AX := 0, CX := 0, DX := 0x0080, BX := 0, SP := 0, BP := 0, SI := 0, DI := 0,
    ES := 0, CS := 0xF000, SS := 0, DS := 0, SCRATCH := 0 }

/-- The flags at launch (10_state R38): `TF` is 0, the others at the value log 4 names. -/
def Flags.reset : Flags :=
  { CF := false, PF := false, AF := false, ZF := false, SF := false, TF := false, IF := false, DF := false, OF := false }

/-- The launch state of 10_state R38 before a boot image is placed. What the spec leaves unspecified has the value of log 3 to
log 6, the open parameters that of log 13 to log 15; `tickPeriod` is PRESUMED (log 13). -/
def State.reset : State :=
  { regs := Regs.reset
    flags := Flags.reset
    IP := 0x0100
    mem := []
    ports := []
    specialPorts := List.replicate 19 0
    segOvrCnt := 0
    segOvrReg := .es
    repCnt := 0
    repMode := .repne
    trapShadow := false
    tickPending := false
    tickCounter := 0
    runState := .running
    portDevice := 0
    params := { tickPeriod := 20000
                rtcMsAddr := Config.rtcMsAddr
                rtcMsLen := Config.rtcMsLen
                deviceBytes := []
                deviceEverywhere := false }
    draws := 0
    hostCalls := [] }

end Sys2Proof.Machine
end

