-- ==== Sys2Proof/Machine/Flags.lean ====
section
/-! DEFINITION. The flag cells, the packed FLAGS image, and every flag computation: pure functions of the flags before and of
the operands and the result. -/

namespace Sys2Proof.Machine

/-! ### The cells and the packed image (10_state R26 to R28, R35) -/

/-- A flag cell by name. -/
def Flags.get (f : Flags) (x : Flag) : Bool :=
  match x with
  | .cf => f.CF
  | .pf => f.PF
  | .af => f.AF
  | .zf => f.ZF
  | .sf => f.SF
  | .tf => f.TF
  | .intf => f.IF
  | .df => f.DF
  | .of => f.OF

/-- Set a flag cell by name. -/
def Flags.set (f : Flags) (x : Flag) (b : Bool) : Flags :=
  match x with
  | .cf => { f with CF := b }
  | .pf => { f with PF := b }
  | .af => { f with AF := b }
  | .zf => { f with ZF := b }
  | .sf => { f with SF := b }
  | .tf => { f with TF := b }
  | .intf => { f with IF := b }
  | .df => { f with DF := b }
  | .of => { f with OF := b }

/-- `pos(X)`: the bit of a flag in the packed image (10_state R27). -/
def flagPos (x : Flag) : Nat :=
  match x with
  | .cf => 0
  | .pf => 2
  | .af => 4
  | .zf => 6
  | .sf => 7
  | .tf => 8
  | .intf => 9
  | .df => 10
  | .of => 11

/-- One bit at a position of a word. -/
def bitAt (b : Bool) (i : Nat) : Word := if b then 1 <<< i else 0

/-- The nine flags, in the order of the cells. -/
def allFlags : List Flag := [.cf, .pf, .af, .zf, .sf, .tf, .intf, .df, .of]

/-- `PackFlags()` (10_state R27): `0xF002` and the nine cells at their positions. -/
def Flags.pack (f : Flags) : Word :=
  allFlags.foldl (fun w x => w ||| bitAt (f.get x) (flagPos x)) 0xF002

/-- `UnpackFlags(v)` (10_state R27): the nine cells from their positions; every other bit of `v` is ignored. -/
def Flags.unpack (v : Word) : Flags :=
  { CF := v.getLsbD (flagPos .cf), PF := v.getLsbD (flagPos .pf), AF := v.getLsbD (flagPos .af),
    ZF := v.getLsbD (flagPos .zf), SF := v.getLsbD (flagPos .sf), TF := v.getLsbD (flagPos .tf),
    IF := v.getLsbD (flagPos .intf), DF := v.getLsbD (flagPos .df), OF := v.getLsbD (flagPos .of) }

/-- `SAHF` (41_data_movement R168): `UnpackFlags((PackFlags() & 0xFF00) | AH)`. -/
def Flags.loadLow (f : Flags) (ah : Byte) : Flags :=
  Flags.unpack ((f.pack &&& 0xFF00) ||| ah.setWidth 16)

/-- `parity8(b)` (10_state R35): whether the number of 1 bits is even. -/
def parity8 (b : Byte) : Bool := (List.range 8).countP (fun i => b.getLsbD i) % 2 == 0

/-- `SetSZP(w, r)` (10_state R35). -/
def Flags.setSZP {n : Nat} (f : Flags) (r : BitVec n) : Flags :=
  { f with SF := r.msb, ZF := r == 0, PF := parity8 (r.setWidth 8) }

/-! ### Arithmetic and logic (43_alu R221, R222) -/

/-- Policy `SZP+arith` (43_alu R221) for operands `d` and `e`, result `r` and the carry or borrow `c`. -/
def Flags.arith {n : Nat} (f : Flags) (d e r : BitVec n) (c : Bool) : Flags :=
  { f.setSZP r with
    CF := c
    AF := (d ^^^ e ^^^ r).getLsbD 4
    OF := if r = d then false else c ^^ (d ^^^ e ^^^ r).msb }

/-- Policy `SZP+logic` (43_alu R222); `AF` is not changed. -/
def Flags.logic {n : Nat} (f : Flags) (r : BitVec n) : Flags :=
  { f.setSZP r with CF := false, OF := false }

/-- The carry-in of `ADC` and `SBB` as a number. -/
def carryIn (c : Bool) : Nat := if c then 1 else 0

/-- The result `r` of a two-operand operation (43_alu R223 to R230). -/
def aluValue {n : Nat} (op : AluOp) (d e : BitVec n) (c : Bool) : BitVec n :=
  match op with
  | .add => d + e
  | .or => d ||| e
  | .adc => d + e + BitVec.ofNat n (carryIn c)
  | .sbb => d - e - BitVec.ofNat n (carryIn c)
  | .and => d &&& e
  | .sub => d - e
  | .xor => d ^^^ e
  | .cmp => d - e

/-- `F.CF` of an arithmetic operation, on exact integers (43_alu R223, R225, R226, R228, R230); 0 for a logic operation (R222). -/
def aluCarry {n : Nat} (op : AluOp) (d e : BitVec n) (c : Bool) : Bool :=
  match op with
  | .add => decide (2 ^ n ≤ d.toNat + e.toNat)
  | .or => false
  | .adc => decide (2 ^ n ≤ d.toNat + e.toNat + carryIn c)
  | .sbb => decide (d.toNat < e.toNat + carryIn c)
  | .and => false
  | .sub => decide (d.toNat < e.toNat)
  | .xor => false
  | .cmp => decide (d.toNat < e.toNat)

/-- The flags of a two-operand operation (43_alu R221, R222). -/
def aluFlags {n : Nat} (op : AluOp) (d e : BitVec n) (f : Flags) : Flags :=
  match op with
  | .add => f.arith d e (aluValue .add d e f.CF) (aluCarry .add d e f.CF)
  | .or => f.logic (aluValue .or d e f.CF)
  | .adc => f.arith d e (aluValue .adc d e f.CF) (aluCarry .adc d e f.CF)
  | .sbb => f.arith d e (aluValue .sbb d e f.CF) (aluCarry .sbb d e f.CF)
  | .and => f.logic (aluValue .and d e f.CF)
  | .sub => f.arith d e (aluValue .sub d e f.CF) (aluCarry .sub d e f.CF)
  | .xor => f.logic (aluValue .xor d e f.CF)
  | .cmp => f.arith d e (aluValue .cmp d e f.CF) (aluCarry .cmp d e f.CF)

/-- `INC` (41_data_movement R182): operand `d`, result `r`; `CF` is not changed. -/
def Flags.inc {n : Nat} (f : Flags) (d r : BitVec n) : Flags :=
  { f.setSZP r with AF := (d ^^^ 1#n ^^^ r).getLsbD 4, OF := r == BitVec.intMin n }

/-- `DEC` (41_data_movement R182): operand `d`, result `r`; `CF` is not changed. -/
def Flags.dec {n : Nat} (f : Flags) (d r : BitVec n) : Flags :=
  { f.setSZP r with AF := (d ^^^ 1#n ^^^ r).getLsbD 4, OF := d == BitVec.intMin n }

/-- `NEG` (42_unary_muldiv R203): operand `d`, result `r`. -/
def Flags.neg {n : Nat} (f : Flags) (d r : BitVec n) : Flags :=
  { f.setSZP r with CF := d != 0, AF := (d ^^^ r).getLsbD 4, OF := d == BitVec.intMin n }

/-! ### Draws (93_implementation_defined U1 to U6; log 7) -/

/-- `CF` and `OF` of a multiply (42_unary_muldiv R204, R205); `SF ZF PF AF` are draws (U1). -/
def Flags.mul (f : Flags) (draw : Nat) (high : Bool) : Flags :=
  { f with
    CF := high
    OF := high
    SF := Config.freeFlag draw .sf
    ZF := Config.freeFlag draw .zf
    PF := Config.freeFlag draw .pf
    AF := Config.freeFlag draw .af }

/-- A completed divide (42_unary_muldiv R206, R207): all six status flags are draws (U2). -/
def Flags.div (f : Flags) (draw : Nat) : Flags :=
  { f with
    CF := Config.freeFlag draw .cf
    PF := Config.freeFlag draw .pf
    AF := Config.freeFlag draw .af
    ZF := Config.freeFlag draw .zf
    SF := Config.freeFlag draw .sf
    OF := Config.freeFlag draw .of }

/-- `DAA` and `DAS` (47_bcd R341, R342): `OF` is a draw (U4). -/
def Flags.decimal (f : Flags) (draw : Nat) (al : Byte) (af cf : Bool) : Flags :=
  { f.setSZP al with AF := af, CF := cf, OF := Config.freeFlag draw .of }

/-- `AAA` and `AAS` (47_bcd R343, R344): `OF SF ZF PF` are draws (U5). -/
def Flags.asciiAdjust (f : Flags) (draw : Nat) (adjusted : Bool) : Flags :=
  { f with
    AF := adjusted
    CF := adjusted
    OF := Config.freeFlag draw .of
    SF := Config.freeFlag draw .sf
    ZF := Config.freeFlag draw .zf
    PF := Config.freeFlag draw .pf }

/-- `AAM` and `AAD` (47_bcd R345, R346): `CF OF AF` are draws (U6). -/
def Flags.asciiBase (f : Flags) (draw : Nat) (al : Byte) : Flags :=
  { f.setSZP al with
    CF := Config.freeFlag draw .cf
    OF := Config.freeFlag draw .of
    AF := Config.freeFlag draw .af }

/-! ### Shifts and rotates (45_shift_rotate R281 to R287, R289); `c0` is the masked count, not 0 -/

/-- `(x << c) | (x >> (n - c))`, a rotation left of an `n`-bit value (45_shift_rotate R281, R283). -/
def rotl {n : Nat} (x : BitVec n) (c : Nat) : BitVec n := (x <<< c) ||| (x >>> (n - c))

/-- `(x >> c) | (x << (n - c))`, a rotation right of an `n`-bit value (45_shift_rotate R282, R284). -/
def rotr {n : Nat} (x : BitVec n) (c : Nat) : BitVec n := (x >>> c) ||| (x <<< (n - c))

/-- `X'` of 45_shift_rotate R283: `CF ++ d` rotated left by `c0 mod (n+1)`. -/
def rclPair {n : Nat} (d : BitVec n) (cf : Bool) (c0 : Nat) : BitVec (n + 1) := rotl (BitVec.cons cf d) (c0 % (n + 1))

/-- `X'` of 45_shift_rotate R284: `CF ++ d` rotated right by `c0 mod (n+1)`. -/
def rcrPair {n : Nat} (d : BitVec n) (cf : Bool) (c0 : Nat) : BitVec (n + 1) := rotr (BitVec.cons cf d) (c0 % (n + 1))

/-- The result `r` of a shift or rotate. -/
def shiftValue {n : Nat} (op : ShiftOp) (d : BitVec n) (cf : Bool) (c0 : Nat) : BitVec n :=
  match op with
  | .rol => rotl d (c0 % n)
  | .ror => rotr d (c0 % n)
  | .rcl => (rclPair d cf c0).setWidth n
  | .rcr => (rcrPair d cf c0).setWidth n
  | .shl => d <<< c0
  | .shr => d >>> c0
  | .sar => d.sshiftRight c0

/-- `CF` after a shift or rotate with a count other than 0. -/
def shiftCarry {n : Nat} (op : ShiftOp) (d : BitVec n) (cf : Bool) (c0 : Nat) : Bool :=
  match op with
  | .rol => (shiftValue .rol d cf c0).getLsbD 0
  | .ror => (shiftValue .ror d cf c0).msb
  | .rcl => (rclPair d cf c0).msb
  | .rcr => (rcrPair d cf c0).msb
  | .shl => if c0 ≤ n then d.getLsbD (n - c0) else false
  | .shr => if c0 ≤ n then d.getLsbD (c0 - 1) else false
  | .sar => d.getLsbD (min c0 n - 1)

/-- `OF` after a shift or rotate by one, from the operand, the result and the new `CF`. -/
def shiftOverflow {n : Nat} (op : ShiftOp) (d r : BitVec n) (c : Bool) : Bool :=
  match op with
  | .rol => r.msb ^^ r.getLsbD 0
  | .ror => r.msb ^^ r.getLsbD (n - 2)
  | .rcl => r.msb ^^ c
  | .rcr => r.msb ^^ r.getLsbD (n - 2)
  | .shl => r.msb ^^ c
  | .shr => d.msb
  | .sar => false

/-- Rotates set `CF` and `OF` only; shifts set `SF ZF PF` as well; `AF` is not changed (45_shift_rotate R289). -/
def shiftSetsSZP (op : ShiftOp) : Bool :=
  match op with
  | .rol => false
  | .ror => false
  | .rcl => false
  | .rcr => false
  | .shl => true
  | .shr => true
  | .sar => true

/-- The flags after a shift or rotate with a count other than 0: `f` the flags as the store left them, `cf` the carry before;
`OF` is a draw when the count is not 1 (U3). -/
def shiftFlags {n : Nat} (op : ShiftOp) (d : BitVec n) (cf : Bool) (c0 draw : Nat) (f : Flags) : Flags :=
  { (if shiftSetsSZP op then f.setSZP (shiftValue op d cf c0) else f) with
    CF := shiftCarry op d cf c0
    OF :=
      if c0 = 1 then shiftOverflow op d (shiftValue op d cf c0) (shiftCarry op d cf c0) else Config.freeFlag draw .of }

/-! ### Decimal adjustment of `AL` (47_bcd R341, R342) -/

/-- `(AL & 0x0F) > 9 or F.AF == 1`, the test of the low digit in `DAA DAS AAA AAS`. -/
def lowDigitAdjusts (al : Byte) (af : Bool) : Bool := decide (9 < (al &&& 0x0F).toNat) || af

/-- `old_AL > 0x99 or old_CF == 1`, the test of the high digit in `DAA DAS`. -/
def highDigitAdjusts (al : Byte) (cf : Bool) : Bool := decide (0x99 < al.toNat) || cf

/-- `AL` after `DAA`. -/
def daaValue (al : Byte) (af cf : Bool) : Byte :=
  let al1 := if lowDigitAdjusts al af then al + 0x06 else al
  if highDigitAdjusts al cf then al1 + 0x60 else al1

/-- `AL` after `DAS`. -/
def dasValue (al : Byte) (af cf : Bool) : Byte :=
  let al1 := if lowDigitAdjusts al af then al - 0x06 else al
  if highDigitAdjusts al cf then al1 - 0x60 else al1

/-- `CF` after `DAS`. -/
def dasCarry (al : Byte) (af cf : Bool) : Bool :=
  let c1 := lowDigitAdjusts al af && (cf || decide (al.toNat < 6))
  if highDigitAdjusts al cf then true else c1

end Sys2Proof.Machine
end

