-- ==== Sys2Proof/Machine/Memory.lean ====
section
/-! DEFINITION. Byte arrays in canonical form: reading, writing and the form itself. `Mem` (20_memory R60) and `Ports` (10_state
R30) are both held so. -/

namespace Sys2Proof.Machine

/-- The byte at an address; an address that is not listed holds `Config.unlisted` (log 3, log 5). -/
def Memory.get (m : Memory) (a : Nat) : Byte :=
  match m with
  | [] => Config.unlisted
  | (k, v) :: rest => if a < k then Config.unlisted else if a = k then v else Memory.get rest a

/-- Store a byte. Storing what an unlisted address reads as removes the cell. -/
def Memory.set (m : Memory) (a : Nat) (v : Byte) : Memory :=
  match m with
  | [] => if v = Config.unlisted then [] else [(a, v)]
  | (k, x) :: rest =>
    if a < k then
      if v = Config.unlisted then (k, x) :: rest else (a, v) :: (k, x) :: rest
    else if a = k then
      if v = Config.unlisted then rest else (a, v) :: rest
    else (k, x) :: Memory.set rest a v

/-- The canonical form from address `lo` on: addresses rise strictly, lie below `size`, and no cell holds what an unlisted
address reads as. -/
def Memory.wfFrom (size lo : Nat) (m : Memory) : Bool :=
  match m with
  | [] => true
  | (k, v) :: rest =>
    decide (lo ≤ k) && decide (k < size) && decide (v ≠ Config.unlisted) && Memory.wfFrom size (k + 1) rest

/-- The canonical form of an array of `size` bytes. -/
def Memory.wf (size : Nat) (m : Memory) : Bool := Memory.wfFrom size 0 m

/-- The number of bytes of `Mem` (00_scope R5). -/
def memSize : Nat := 2 ^ 20

/-- The number of ports (00_scope R5). -/
def portCount : Nat := 2 ^ 16

end Sys2Proof.Machine
end

