-- ==== Sys2Proof/Machine/Ops.lean ====
section
/-! DEFINITION. The named operations of 00_scope R9 on the state: registers, memory with the register page in it, the stack,
`IP`, ports, hooks, taking an exception and returning from one. -/

namespace Sys2Proof.Machine

/-- One part of a cycle after another (00_scope R10). -/
def andThen (r : Result) (k : State → Result) : Result :=
  match r with
  | .next s => k s
  | .fault f => .fault f
  | .refused x => .refused x

/-! ### Registers (10_state R21 to R23) -/

/-- The value of a register. -/
def Regs.get (g : Regs) (r : Reg) : Word :=
  match r with
  | .ax => g.AX
  | .cx => g.CX
  | .dx => g.DX
  | .bx => g.BX
  | .sp => g.SP
  | .bp => g.BP
  | .si => g.SI
  | .di => g.DI
  | .es => g.ES
  | .cs => g.CS
  | .ss => g.SS
  | .ds => g.DS

/-- Write a register. -/
def Regs.set (g : Regs) (r : Reg) (v : Word) : Regs :=
  match r with
  | .ax => { g with AX := v }
  | .cx => { g with CX := v }
  | .dx => { g with DX := v }
  | .bx => { g with BX := v }
  | .sp => { g with SP := v }
  | .bp => { g with BP := v }
  | .si => { g with SI := v }
  | .di => { g with DI := v }
  | .es => { g with ES := v }
  | .cs => { g with CS := v }
  | .ss => { g with SS := v }
  | .ds => { g with DS := v }

/-- `R16[i]`, `i` in 0..7 (10_state R21). -/
def Reg.ofNum (i : RegNum) : Reg :=
  match i with
  | 0 => .ax
  | 1 => .cx
  | 2 => .dx
  | 3 => .bx
  | 4 => .sp
  | 5 => .bp
  | 6 => .si
  | 7 => .di

/-- The register that holds `R8[i]` (10_state R22). -/
def Reg.ofNum8 (i : RegNum) : Reg :=
  match i with
  | 0 => .ax
  | 1 => .cx
  | 2 => .dx
  | 3 => .bx
  | 4 => .ax
  | 5 => .cx
  | 6 => .dx
  | 7 => .bx

/-- Whether `R8[i]` is the high byte of its register (10_state R22). -/
def isHigh8 (i : RegNum) : Bool := decide (4 ≤ i.val)

/-- `SR[s]` (10_state R23). -/
def Reg.ofSReg (sr : SReg) : Reg :=
  match sr with
  | .es => .es
  | .cs => .cs
  | .ss => .ss
  | .ds => .ds

/-- The low or the high byte of a word (20_memory R62). -/
def byteOf (high : Bool) (w : Word) : Byte := if high then w.extractLsb' 8 8 else w.setWidth 8

/-- A word with its low or high byte replaced. -/
def withByte (high : Bool) (b : Byte) (w : Word) : Word :=
  if high then b ++ byteOf false w else byteOf true w ++ b

/-- The value of a 16-bit register. -/
def State.reg (s : State) (r : Reg) : Word := s.regs.get r

/-- Write a 16-bit register. -/
def State.setReg (s : State) (r : Reg) (v : Word) : State := { s with regs := s.regs.set r v }

/-- `R8[i]` (10_state R22). -/
def State.reg8 (s : State) (i : RegNum) : Byte := byteOf (isHigh8 i) (s.reg (Reg.ofNum8 i))

/-- Write `R8[i]`: the other half of its register is not changed (10_state R22). -/
def State.setReg8 (s : State) (i : RegNum) (b : Byte) : State :=
  s.setReg (Reg.ofNum8 i) (withByte (isHigh8 i) b (s.reg (Reg.ofNum8 i)))

/-- `AL`. -/
abbrev State.AL (s : State) : Byte := s.reg8 0

/-- `AH`. -/
abbrev State.AH (s : State) : Byte := s.reg8 4

/-- The register with number `i` at width `w`. -/
def State.readReg (s : State) (w : Width) (i : RegNum) : BitVec w.bits :=
  match w with
  | .byte => s.reg8 i
  | .word => s.reg (Reg.ofNum i)

/-- Write the register with number `i` at width `w`. -/
def State.writeReg (s : State) (w : Width) (i : RegNum) (v : BitVec w.bits) : State :=
  match w with
  | .byte => s.setReg8 i v
  | .word => s.setReg (Reg.ofNum i) v

/-- Replace the flags. -/
def State.setFlags (s : State) (f : Flags) : State := { s with flags := f }

/-- The next draw: every free value taken from here on differs from those taken before (log 7, log 25). -/
def State.nextDraw (s : State) : State := { s with draws := s.draws + 1 }

/-! ### Memory and the register page (20_memory R60 to R68, 10_state R25, R36) -/

/-- `lin(seg, off)` (20_memory R61). -/
def lin (seg off : Word) : Addr := BitVec.ofNat 20 (16 * seg.toNat + off.toNat)

/-- What a linear address holds: a byte of a register, of `ZERO` or the constant cell, of `SCRATCH`, a flag cell, or an ordinary
byte of memory (10_state R25). -/
inductive PageCell where
  | reg (r : Reg) (high : Bool)
  | zero
  | scratch (high : Bool)
  | flag (x : Flag)
  | plain
  deriving DecidableEq, Repr

/-- The register page up to its last assigned offset, 49 (table of 10_state R25). -/
def pageLayout : List PageCell :=
  [ .reg .ax false, .reg .ax true, .reg .cx false, .reg .cx true, .reg .dx false, .reg .dx true, .reg .bx false, .reg .bx true,
    .reg .sp false, .reg .sp true, .reg .bp false, .reg .bp true, .reg .si false, .reg .si true, .reg .di false, .reg .di true,
    .reg .es false, .reg .es true, .reg .cs false, .reg .cs true, .reg .ss false, .reg .ss true, .reg .ds false, .reg .ds true,
    .zero, .zero, .scratch false, .scratch true,
    .plain, .plain, .plain, .plain, .plain, .plain, .plain, .plain, .plain, .plain, .plain, .plain,
    .flag .cf, .flag .pf, .flag .af, .flag .zf, .flag .sf, .flag .tf, .flag .intf, .flag .df, .flag .of, .zero ]

/-- What a linear address holds. -/
def cellAt (a : Addr) : PageCell :=
  if (a - Config.regsBase).toNat < 50 then pageLayout.getD (a - Config.regsBase).toNat .plain else .plain

/-- `MemRead(a, 1)` (20_memory R63, R68). `SCRATCH` reads as a free value (10_state R36, U7; log 8). -/
def State.readByte (s : State) (a : Addr) : Byte :=
  match cellAt a with
  | .reg r high => byteOf high (s.reg r)
  | .zero => 0
  | .scratch high => Config.scratchByte s.draws high.toNat (byteOf high s.regs.SCRATCH)
  | .flag x => if s.flags.get x then 1 else 0
  | .plain => s.mem.get a.toNat

/-- Whether a store of byte `v` at `a` keeps the invariants of the register page (10_state R36). -/
def canStoreByte (a : Addr) (v : Byte) : Bool :=
  match cellAt a with
  | .reg _ _ => true
  | .zero => v == 0
  | .scratch _ => true
  | .flag _ => v == 0 || v == 1
  | .plain => true

/-- The store itself. -/
def State.putByte (s : State) (a : Addr) (v : Byte) : State :=
  match cellAt a with
  | .reg r high => s.setReg r (withByte high v (s.reg r))
  | .zero => s
  | .scratch high => { s with regs := { s.regs with SCRATCH := withByte high v s.regs.SCRATCH } }
  | .flag x => s.setFlags (s.flags.set x (v == 1))
  | .plain => { s with mem := s.mem.set a.toNat v }

/-- `MemRead(a, w+1)` (20_memory R63): the second byte of a word is at the next linear address. -/
def State.readMem (s : State) (w : Width) (a : Addr) : BitVec w.bits :=
  match w with
  | .byte => s.readByte a
  | .word => s.readByte (a + 1#20) ++ s.readByte a

/-- Whether a store of `v` keeps the invariants of the register page. -/
def canStore (w : Width) (a : Addr) (v : BitVec w.bits) : Bool :=
  match w with
  | .byte => canStoreByte a v
  | .word => canStoreByte a (byteOf false v) && canStoreByte (a + 1#20) (byteOf true v)

/-- The store itself, low byte first (20_memory R63). -/
def State.putMem (s : State) (w : Width) (a : Addr) (v : BitVec w.bits) : State :=
  match w with
  | .byte => s.putByte a v
  | .word => (s.putByte a (byteOf false v)).putByte (a + 1#20) (byteOf true v)

/-- `MemWrite(a, w+1, v)`; a store that would break an invariant of the register page is refused (10_state R36, U14; log 12). -/
def State.writeMem (s : State) (w : Width) (a : Addr) (v : BitVec w.bits) : Result :=
  if canStore w a v then .next (s.putMem w a v) else .refused .breaksPageInvariant

/-- Store the bytes `f i, f (i+1), …` (`n` of them) at `a + i, a + i + 1, …`, one after another (20_memory R78). -/
def State.writeBytes (s : State) (a : Addr) (f : Nat → Byte) (i n : Nat) : Result :=
  match n with
  | 0 => .next s
  | n + 1 => andThen (s.writeMem .byte (a + BitVec.ofNat 20 i) (f i)) fun s => s.writeBytes a f (i + 1) n

/-! ### Operand locations (00_scope R9) -/

/-- Where an operand is: a register or a linear address. -/
inductive Loc where
  | reg (i : RegNum)
  | mem (a : Addr)
  deriving DecidableEq, Repr

/-- `Rd(loc, w)`. -/
def State.readLoc (s : State) (w : Width) (l : Loc) : BitVec w.bits :=
  match l with
  | .reg i => s.readReg w i
  | .mem a => s.readMem w a

/-- `Wr(loc, w, v)`. -/
def State.writeLoc (s : State) (w : Width) (l : Loc) (v : BitVec w.bits) : Result :=
  match l with
  | .reg i => .next (s.writeReg w i v)
  | .mem a => s.writeMem w a v

/-! ### The instruction pointer (10_state R29) -/

/-- `SetIP(v)` for an exact integer. -/
def State.setIP (s : State) (v : Int) : Result :=
  if 0 ≤ v ∧ v ≤ 0xFFFF then .next { s with IP := BitVec.ofInt 16 v } else .fault .runaway

/-- `next = IP + L` as an exact integer (00_scope R10). -/
def State.nextIP (s : State) (len : Nat) : Int := (s.IP.toNat + len : Nat)

/-- `SetIP(next)`. -/
def State.advance (s : State) (len : Nat) : Result := s.setIP (s.nextIP len)

/-- `SetIP(next + disp)`. -/
def State.jump (s : State) (len : Nat) (disp : Int) : Result := s.setIP (s.nextIP len + disp)

/-- `next` as a return address; above 0xFFFF the instruction ends in Runaway before anything is pushed (46_control_transfer
R300). -/
def State.withReturn (s : State) (len : Nat) (k : Word → Result) : Result :=
  if s.IP.toNat + len ≤ 0xFFFF then k (BitVec.ofNat 16 (s.IP.toNat + len)) else .fault .runaway

/-! ### The stack (20_memory R77) -/

/-- The linear address `SS:SP`. -/
def State.stackAddr (s : State) : Addr := lin (s.reg .ss) (s.reg .sp)

/-- `SP <- (SP - 2) mod 2^16`. -/
def State.lowerSP (s : State) : State := s.setReg .sp (s.reg .sp - 2#16)

/-- `Push16(v)`. -/
def State.push16 (s : State) (v : Word) : Result := s.lowerSP.writeMem .word s.lowerSP.stackAddr v

/-- The word `Pop16()` returns. -/
def State.stackTop (s : State) : Word := s.readMem .word s.stackAddr

/-- The state `Pop16()` leaves. -/
def State.pop16 (s : State) : State := s.setReg .sp (s.reg .sp + 2#16)

/-! ### Taking an exception and returning from one (60_exceptions R401, R403, R409) -/

/-- The offset word of a vector-table entry: linear `4*v` (10_state R34). -/
def vectorAddr (v : Byte) : Addr := BitVec.ofNat 20 (4 * v.toNat)

/-- The last part of `deliver`, after the pushes: `CS:IP` from the vector table, then `TF` and `IF` cleared. -/
def State.enterVector (s : State) (v : Byte) : State :=
  let s1 := { s with IP := s.readMem .word (vectorAddr v) }
  let s2 := s1.setReg .cs (s1.readMem .word (vectorAddr v + 2#20))
  s2.setFlags { s2.flags with TF := false, IF := false }

/-- `deliver(v)` (60_exceptions R401). -/
def State.deliver (s : State) (v : Byte) : Result :=
  andThen (s.push16 s.flags.pack) fun s =>
  andThen (s.push16 (s.reg .cs)) fun s =>
  andThen (s.push16 s.IP) fun s =>
  .next (s.enterVector v)

/-- `raise DivideFault` (60_exceptions R403): `IP` stays at the opcode byte. -/
def State.divideFault (s : State) : Result := s.deliver 0

/-- `IRET` (46_control_transfer R321, 60_exceptions R409): the pops of `IP`, `CS` and the flags image, then `SetIP`. -/
def State.interruptReturn (s : State) : Result :=
  let t := s.stackTop
  let s := s.pop16
  let s := s.pop16.setReg .cs s.stackTop
  let s := s.pop16.setFlags (Flags.unpack s.stackTop)
  s.setIP t.toNat

/-! ### Ports (20_memory R75, R76, 60_exceptions R413) -/

/-- Whether a port is special (10_state R30). -/
def isSpecialPort (p : Word) : Bool := Config.specialPorts.contains p

/-- `Ports[p]` (10_state R30): what was last stored there; at a special port a free value, whatever was (20_memory R76; log 14). -/
def State.portByte (s : State) (p : Word) : Byte :=
  if isSpecialPort p then
    Config.devicePort s.draws s.portDevice p (s.specialPorts.getD (Config.specialPorts.idxOf p) Config.unlisted)
  else s.ports.get p.toNat

/-- `Ports[p] <- v`. -/
def State.setPort (s : State) (p : Word) (v : Byte) : State :=
  { s with
    ports := if isSpecialPort p then s.ports else s.ports.set p.toNat v
    specialPorts := if isSpecialPort p then s.specialPorts.set (Config.specialPorts.idxOf p) v else s.specialPorts }

/-- Whether an access is a word, as `PortDevice` is told. -/
def Width.isWord : Width → Bool
  | .byte => false
  | .word => true

/-- Whether an address lies in the register page, all 256 bytes of it (10_state R25). -/
def inRegisterPage (a : Addr) : Bool := decide ((a - Config.regsBase).toNat < 256)

/-- Whether one of the ports of an access is special (10_state R30, 20_memory R75). -/
def reachesSpecial (w : Width) (p : Word) : Bool :=
  match w with
  | .byte => isSpecialPort p
  | .word => isSpecialPort p || isSpecialPort (p + 1#16)

/-- Whether `PortDevice` acts on an access: on those of special ports, and on all if the instance is such (log 14). -/
def State.deviceActsAt (s : State) (w : Width) (p : Word) : Bool := s.params.deviceEverywhere || reachesSpecial w p

/-- The bytes of `Mem` that `PortDevice` may modify on an access: those it declares, outside the register page (60_exceptions R413). -/
def State.deviceCells (s : State) (w : Width) (p : Word) : List Addr :=
  s.params.deviceBytes.filter fun a => !inRegisterPage a && s.deviceActsAt w p

/-- `Mem` after `PortDevice` was called on an access: each byte it may modify is a free value (60_exceptions R413; log 14). `v` is the
value written, none for a read. -/
def State.deviceMem (s : State) (w : Width) (p : Word) (v : Option Word) : Memory :=
  (s.deviceCells w p).foldl
    (fun m a => m.set a.toNat (Config.deviceByte s.draws s.portDevice p (Width.isWord w) v a (m.get a.toNat))) s.mem

/-- `beforeRead` or `afterWrite` of `PortDevice` (20_memory R75, 60_exceptions R413): where it acts, its private state and the bytes of
`Mem` it may modify become free values. In any case the next draw: what special ports hold after any `IN` or `OUT` is open
(20_memory R76), and is a free value of its own (log 14, log 25). Nothing else changes. -/
def State.deviceCalled (s : State) (w : Width) (p : Word) (v : Option Word) : State :=
  { s with
    mem := s.deviceMem w p v
    portDevice :=
      if s.deviceActsAt w p then Config.deviceNext s.draws s.portDevice p (Width.isWord w) v else s.portDevice
    draws := s.draws + 1 }

/-- The value of `PortRead(p, w)` once `PortDevice` was called (20_memory R75). -/
def State.portValue (s : State) (w : Width) (p : Word) : BitVec w.bits :=
  match w with
  | .byte => s.portByte p
  | .word => s.portByte (p + 1#16) ++ s.portByte p

/-- The stores of `PortWrite(p, w, v)` (20_memory R75). -/
def State.putPort (s : State) (w : Width) (p : Word) (v : BitVec w.bits) : State :=
  match w with
  | .byte => s.setPort p v
  | .word => (s.setPort p (byteOf false v)).setPort (p + 1#16) (byteOf true v)

/-- `PortRead(p, w)` into the accumulator (48_io_flags_misc R350). -/
def State.portRead (s : State) (w : Width) (p : Word) : State :=
  let s := s.deviceCalled w p none
  s.writeReg w 0 (s.portValue w p)

/-- `PortWrite(p, w, v)`. -/
def State.portWrite (s : State) (w : Width) (p : Word) (v : BitVec w.bits) : State :=
  (s.putPort w p v).deviceCalled w p (some (v.setWidth 16))

/-! ### Host hooks (60_exceptions R420 to R423) -/

/-- A call of a hook, as the model records it (log 17). -/
def State.callHook (s : State) (c : HostCall) : State := { s with hostCalls := s.hostCalls ++ [c] }

/-- The buffer address of the hooks, `lin(ES, BX)`. -/
def State.hookBuffer (s : State) : Addr := lin (s.reg .es) (s.reg .bx)

/-- The bytes of the buffer of a disk write. -/
def State.bufferBytes (s : State) (a : Addr) (n : Nat) : List Byte :=
  (List.range n).map fun i => s.readByte (a + BitVec.ofNat 20 i)

end Sys2Proof.Machine
end

