-- ==== Sys2Proof/Machine/Operands.lean ====
section
/-! DEFINITION. Operand resolution (30_encoding R94 to R97, R99): the effective address of every operand form, the segment of a
memory operand, and the locations of the operands. -/

namespace Sys2Proof

open Machine

/-- Base and index of an address form (table of 30_encoding R94), modulo 2^16. -/
def AddrForm.value (f : AddrForm) (s : State) : Word :=
  match f with
  | .bxSi => s.reg .bx + s.reg .si
  | .bxDi => s.reg .bx + s.reg .di
  | .bpSi => s.reg .bp + s.reg .si
  | .bpDi => s.reg .bp + s.reg .di
  | .si => s.reg .si
  | .di => s.reg .di
  | .bp => s.reg .bp
  | .bx => s.reg .bx

/-- The default segment of an address form (table of 30_encoding R94): `SS` for the forms with `BP`. -/
def AddrForm.segment (f : AddrForm) : SReg :=
  match f with
  | .bxSi => .ds
  | .bxDi => .ds
  | .bpSi => .ss
  | .bpDi => .ss
  | .si => .ds
  | .di => .ds
  | .bp => .ss
  | .bx => .ds

/-- The 16-bit offset of a memory operand (30_encoding R94, R95). -/
def MemOperand.offset (m : MemOperand) (s : State) : Word :=
  match m with
  | .base f => f.value s
  | .direct a => a
  | .disp8 f d => f.value s + d.signExtend 16
  | .disp16 f d => f.value s + d

/-- The default segment of a memory operand (30_encoding R94, R96). -/
def MemOperand.segment (m : MemOperand) : SReg :=
  match m with
  | .base f => f.segment
  | .direct _ => .ds
  | .disp8 f _ => f.segment
  | .disp16 f _ => f.segment

namespace Machine

/-- The segment of an access that a prefix can override (30_encoding R96): `R16[SegOvrReg]` while `SegOvrCnt` is not 0, else the
default. -/
def State.segment (s : State) (dflt : SReg) : Word :=
  if s.segOvrCnt ≠ 0 then s.reg (Reg.ofSReg s.segOvrReg) else s.reg (Reg.ofSReg dflt)

/-- The linear address of an access that a prefix can override. -/
def State.dataAddr (s : State) (dflt : SReg) (off : Word) : Addr := lin (s.segment dflt) off

end Machine

/-- The linear address of a memory operand (30_encoding R94). -/
def MemOperand.addr (m : MemOperand) (s : State) : Addr := s.dataAddr m.segment (m.offset s)

/-- `rmLoc` (30_encoding R94, R99). -/
def RM.loc (rm : RM) (s : State) : Loc :=
  match rm with
  | .reg r => .reg r
  | .mem m => .mem (m.addr s)

namespace Machine

/-- The destination of a form with a direction bit (30_encoding R99). -/
def dstLoc (d : Direction) (reg : RegNum) (rm : RM) (s : State) : Loc :=
  match d with
  | .toRm => rm.loc s
  | .toReg => .reg reg

/-- The source of a form with a direction bit (30_encoding R99). -/
def srcLoc (d : Direction) (reg : RegNum) (rm : RM) (s : State) : Loc :=
  match d with
  | .toRm => .reg reg
  | .toReg => rm.loc s

/-- A far pointer in memory: the offset word at `a`, the segment word at linear `a + 2` (20_memory R66). -/
def State.farOffset (s : State) (a : Addr) : Word := s.readMem .word a

/-- The segment word of a far pointer in memory. -/
def State.farSegment (s : State) (a : Addr) : Word := s.readMem .word (a + 2#20)

/-- The masked shift count `c0` (45_shift_rotate R280). -/
def maskedCount (raw : Byte) : Nat := (raw &&& Config.shiftCountMask).toNat

/-- The count of `D0..D3` (45_shift_rotate R280): 1, or `CL` masked. -/
def State.shiftCount (s : State) (c : ShiftCount) : Nat :=
  match c with
  | .one => 1
  | .cl => maskedCount (s.reg8 1)

end Machine

end Sys2Proof
end

