-- ==== Sys2Proof/Machine/Cycle.lean ====
section
/-! DEFINITION. What a cycle does around its instruction (60_exceptions R402, R419): the fetch, the start of the cycle and its
end. -/

namespace Sys2Proof.Machine

/-- `lin(CS, IP)`, where the fetch begins (30_encoding R90). -/
def State.fetchAddr (s : State) : Addr := lin (s.reg .cs) s.IP

/-- The bytes of the instruction stream at `lin(CS, IP) + i` (20_memory R79): six, as many as the longest instruction has
(30_encoding R90). -/
def State.fetchBytes (s : State) : List Byte :=
  [s.readByte s.fetchAddr, s.readByte (s.fetchAddr + 1#20), s.readByte (s.fetchAddr + 2#20), s.readByte (s.fetchAddr + 3#20),
    s.readByte (s.fetchAddr + 4#20), s.readByte (s.fetchAddr + 5#20)]

/-- The start of a cycle after the fetch of its opcode byte: a pending prefix counter is lowered (44_string_prefix R260). -/
def State.startCycle (s : State) : State :=
  { s.nextDraw with segOvrCnt := s.segOvrCnt - 1, repCnt := s.repCnt - 1 }

/-- Step 8 (R402): the count of cycles, and the request every `TICK_PERIOD` of them. -/
def State.countCycle (s : State) : State :=
  { s with
    tickCounter := (s.tickCounter + 1) % s.params.tickPeriod
    tickPending := (s.tickCounter + 1) % s.params.tickPeriod == 0 || s.tickPending }

/-- Step 9 (R402): the single-step trap of a cycle entered with `TrapShadow = 1`, then `TrapShadow <- F.TF`. -/
def State.trapStep (s : State) : Result :=
  andThen (if s.trapShadow then s.deliver 1 else .next s) fun s => .next { s with trapShadow := s.flags.TF }

/-- The condition of step 10 (R402). -/
def State.tickDue (s : State) : Bool :=
  s.tickPending && s.segOvrCnt == 0 && s.repCnt == 0 && s.flags.IF && !s.flags.TF

/-- Step 10 (R402): the delivery of a pending tick. -/
def State.tickStep (s : State) : Result :=
  if s.tickDue then andThen (s.deliver Config.tickVector) fun s => .next { s with tickPending := false } else .next s

/-- `EndOfCycle` (R402). -/
def State.endOfCycle (s : State) : Result :=
  andThen s.countCycle.trapStep fun s => andThen s.tickStep fun s => .next s.nextDraw

/-- Store bytes one after another from an address on. -/
def State.putBytes (s : State) (a : Addr) (bs : List Byte) : State :=
  match bs with
  | [] => s
  | b :: rest => (s.putByte a b).putBytes (a + 1#20) rest

end Sys2Proof.Machine
end

