-- ==== Sys2Proof/Machine/DataMove.lean ====
section
/-! DEFINITION. Data movement, stack, exchange, address loads, `INC` and `DEC` (41_data_movement). The value of a store is read
and its address computed before the store (R150, 00_scope R10). -/

namespace Sys2Proof.Machine

/-- `Wr(loc, w, v); SetIP(next)`. -/
def State.storeThenNext (s : State) (w : Width) (l : Loc) (v : BitVec w.bits) (len : Nat) : Result :=
  andThen (s.writeLoc w l v) fun s => s.advance len

/-- `Push16(v); SetIP(next)`. -/
def State.pushThenNext (s : State) (v : Word) (len : Nat) : Result := andThen (s.push16 v) fun s => s.advance len

/-! ### MOV -/

/-- `MOV r/m, reg` (R151). -/
def execMovRmR (w : Width) (reg : RegNum) (rm : RM) (s : State) : Result :=
  s.storeThenNext w (rm.loc s) (s.readReg w reg) (2 + rm.dispLen)

/-- `MOV reg, r/m` (R152). -/
def execMovRRm (w : Width) (reg : RegNum) (rm : RM) (s : State) : Result :=
  s.storeThenNext w (.reg reg) (s.readLoc w (rm.loc s)) (2 + rm.dispLen)

/-- `MOV r/m8, imm8` (R153). -/
def execMovRm8Imm8 (rm : RM) (imm : Byte) (s : State) : Result :=
  s.storeThenNext .byte (rm.loc s) imm (3 + rm.dispLen)

/-- `MOV r/m16, imm16` (R153). -/
def execMovRm16Imm16 (rm : RM) (imm : Word) (s : State) : Result :=
  s.storeThenNext .word (rm.loc s) imm (4 + rm.dispLen)

/-- `MOV r8, imm8` (R154). -/
def execMovR8Imm8 (r : RegNum) (imm : Byte) (s : State) : Result := (s.writeReg .byte r imm).advance 2

/-- `MOV r16, imm16` (R154). -/
def execMovR16Imm16 (r : RegNum) (imm : Word) (s : State) : Result := (s.writeReg .word r imm).advance 3

/-- `MOV AL/AX, [addr16]` (R155). -/
def execMovAccMoffs (w : Width) (addr : Word) (s : State) : Result :=
  (s.writeReg w 0 (s.readMem w (s.dataAddr .ds addr))).advance 3

/-- `MOV [addr16], AL/AX` (R156). -/
def execMovMoffsAcc (w : Width) (addr : Word) (s : State) : Result :=
  s.storeThenNext w (.mem (s.dataAddr .ds addr)) (s.readReg w 0) 3

/-- `MOV r/m16, sreg` (R157). -/
def execMovRm16Sreg (sr : SReg) (rm : RM) (s : State) : Result :=
  s.storeThenNext .word (rm.loc s) (s.reg (Reg.ofSReg sr)) (2 + rm.dispLen)

/-- `MOV sreg, r/m16` (R158). -/
def execMovSregRm16 (sr : SReg) (rm : RM) (s : State) : Result :=
  (s.setReg (Reg.ofSReg sr) (s.readLoc .word (rm.loc s))).advance (2 + rm.dispLen)

/-! ### The stack -/

/-- `PUSH r16` (R159): the register is read after `SP` is lowered, so `PUSH SP` stores the new `SP` (log 23). -/
def execPushR16 (r : RegNum) (s : State) : Result :=
  andThen (s.lowerSP.writeMem .word s.lowerSP.stackAddr (s.lowerSP.reg (Reg.ofNum r))) fun s => s.advance 1

/-- `POP r16` (R160). -/
def execPopR16 (r : RegNum) (s : State) : Result := (s.pop16.setReg (Reg.ofNum r) s.stackTop).advance 1

/-- `PUSH sreg` (R161). -/
def execPushSreg (sr : SReg) (s : State) : Result := s.pushThenNext (s.reg (Reg.ofSReg sr)) 1

/-- `SR[s] <- Pop16(); SetIP(next)`. -/
def State.popSegment (s : State) (sr : SReg) : Result := (s.pop16.setReg (Reg.ofSReg sr) s.stackTop).advance 1

/-- `POP ES` (R162). -/
def execPopEs (s : State) : Result := s.popSegment .es

/-- `POP SS` (R162). -/
def execPopSs (s : State) : Result := s.popSegment .ss

/-- `POP DS` (R162). -/
def execPopDs (s : State) : Result := s.popSegment .ds

/-- `PUSH r/m16` (R163): the location is computed before `SP` is lowered, the operand is read after. -/
def execPushRm16 (rm : RM) (s : State) : Result :=
  andThen (s.lowerSP.writeMem .word s.lowerSP.stackAddr (s.lowerSP.readLoc .word (rm.loc s))) fun s =>
  s.advance (2 + rm.dispLen)

/-- `POP r/m16` (R164): the location is computed before the pop. -/
def execPopRm16 (rm : RM) (s : State) : Result :=
  s.pop16.storeThenNext .word (rm.loc s) s.stackTop (2 + rm.dispLen)

/-- `PUSHF` (R165). -/
def execPushf (s : State) : Result := s.pushThenNext s.flags.pack 1

/-- `POPF` (R166). -/
def execPopf (s : State) : Result := (s.pop16.setFlags (Flags.unpack s.stackTop)).advance 1

/-! ### Flag transfers through `AH` -/

/-- `LAHF` (R167). -/
def execLahf (s : State) : Result := (s.setReg8 4 (byteOf false s.flags.pack)).advance 1

/-- `SAHF` (R168). -/
def execSahf (s : State) : Result := (s.setFlags (s.flags.loadLow s.AH)).advance 1

/-! ### Exchange -/

/-- `XCHG AX, r16` (R169). -/
def execXchgAxR16 (r : RegNum) (s : State) : Result :=
  ((s.setReg .ax (s.reg (Reg.ofNum r))).setReg (Reg.ofNum r) (s.reg .ax)).advance 1

/-- `NOP` (R170). -/
def execNop (s : State) : Result := s.advance 1

/-- `XCHG reg, r/m` (R171): both are read, then the register is written, then the r/m operand. -/
def execXchgRmR (w : Width) (reg : RegNum) (rm : RM) (s : State) : Result :=
  (s.writeReg w reg (s.readLoc w (rm.loc s))).storeThenNext w (rm.loc s) (s.readReg w reg) (2 + rm.dispLen)

/-! ### Address and pointer loads -/

/-- `LEA r16, m` (R172). -/
def execLea (reg : RegNum) (m : MemOperand) (s : State) : Result :=
  (s.setReg (Reg.ofNum reg) (m.offset s)).advance (2 + m.dispLen)

/-- `LES` and `LDS`: both words are read before either register is written (R173, R174). -/
def State.loadFar (s : State) (sr : SReg) (reg : RegNum) (m : MemOperand) : Result :=
  ((s.setReg (Reg.ofNum reg) (s.farOffset (m.addr s))).setReg (Reg.ofSReg sr) (s.farSegment (m.addr s))).advance
    (2 + m.dispLen)

/-- `LES r16, m16:16` (R173). -/
def execLes (reg : RegNum) (m : MemOperand) (s : State) : Result := s.loadFar .es reg m

/-- `LDS r16, m16:16` (R174). -/
def execLds (reg : RegNum) (m : MemOperand) (s : State) : Result := s.loadFar .ds reg m

/-- `XLAT` (R175): `AL` is added unsigned to `BX`, modulo 2^16. -/
def execXlat (s : State) : Result :=
  (s.setReg8 0 (s.readByte (s.dataAddr .ds (s.reg .bx + s.AL.setWidth 16)))).advance 1

/-! ### Sign extension of the accumulator -/

/-- `CBW` (R176). -/
def execCbw (s : State) : Result := (s.setReg8 4 (if s.AL.msb then 0xFF else 0x00)).advance 1

/-- `CWD` (R177). -/
def execCwd (s : State) : Result := (s.setReg .dx (if (s.reg .ax).msb then 0xFFFF else 0x0000)).advance 1

/-! ### INC and DEC: the result is stored before the flags are set (R178 to R182) -/

/-- `INC` of a location. -/
def State.increment (s : State) (w : Width) (l : Loc) (len : Nat) : Result :=
  andThen (s.writeLoc w l (s.readLoc w l + 1#w.bits)) fun t =>
  (t.setFlags (t.flags.inc (s.readLoc w l) (s.readLoc w l + 1#w.bits))).advance len

/-- `DEC` of a location. -/
def State.decrement (s : State) (w : Width) (l : Loc) (len : Nat) : Result :=
  andThen (s.writeLoc w l (s.readLoc w l - 1#w.bits)) fun t =>
  (t.setFlags (t.flags.dec (s.readLoc w l) (s.readLoc w l - 1#w.bits))).advance len

/-- `INC r16` (R178). -/
def execIncR16 (r : RegNum) (s : State) : Result := s.increment .word (.reg r) 1

/-- `DEC r16` (R179). -/
def execDecR16 (r : RegNum) (s : State) : Result := s.decrement .word (.reg r) 1

/-- `INC r/m` (R180). -/
def execIncRm (w : Width) (rm : RM) (s : State) : Result := s.increment w (rm.loc s) (2 + rm.dispLen)

/-- `DEC r/m` (R181). -/
def execDecRm (w : Width) (rm : RM) (s : State) : Result := s.decrement w (rm.loc s) (2 + rm.dispLen)

end Sys2Proof.Machine
end

