-- ==== Sys2Proof/Machine/Group3.lean ====
section
/-! DEFINITION. Group 3: `TEST` immediate, `NOT`, `NEG`, the multiplies and the divides (42_unary_muldiv). -/

namespace Sys2Proof.Machine

/-- `TEST`: the flags of `a & b`; nothing is stored (R201, 43_alu R231, R232). -/
def State.testValues {n : Nat} (s : State) (a b : BitVec n) (len : Nat) : Result :=
  (s.setFlags (s.flags.logic (a &&& b))).advance len

/-- `TEST r/m8, imm8` (R201). -/
def execTestRm8Imm8 (rm : RM) (imm : Byte) (s : State) : Result :=
  s.testValues (s.readLoc .byte (rm.loc s)) imm (3 + rm.dispLen)

/-- `TEST r/m16, imm16` (R201). -/
def execTestRm16Imm16 (rm : RM) (imm : Word) (s : State) : Result :=
  s.testValues (s.readLoc .word (rm.loc s)) imm (4 + rm.dispLen)

/-- `NOT r/m` (R202). -/
def execNotRm (w : Width) (rm : RM) (s : State) : Result :=
  s.storeThenNext w (rm.loc s) (~~~s.readLoc w (rm.loc s)) (2 + rm.dispLen)

/-- `NEG r/m` (R203): the result is stored before the flags are set. -/
def execNegRm (w : Width) (rm : RM) (s : State) : Result :=
  andThen (s.writeLoc w (rm.loc s) (-s.readLoc w (rm.loc s))) fun t =>
  (t.setFlags (t.flags.neg (s.readLoc w (rm.loc s)) (-s.readLoc w (rm.loc s)))).advance (2 + rm.dispLen)

/-! ### Multiplies (R204, R205) -/

/-- The double-width accumulator: `AX` at `w = 0`, `DX ++ AX` at `w = 1`. -/
def State.wideAcc (s : State) (w : Width) : BitVec (w.bits + w.bits) :=
  match w with
  | .byte => s.reg .ax
  | .word => s.reg .dx ++ s.reg .ax

/-- Write the double-width accumulator from its high and low half. -/
def State.setWideAcc (s : State) (w : Width) (hi lo : BitVec w.bits) : State :=
  match w with
  | .byte => s.setReg .ax (hi ++ lo)
  | .word => (s.setReg .ax lo).setReg .dx hi

/-- The low `n` bits of an exact product. -/
def productLow (n : Nat) (p : Int) : BitVec n := BitVec.ofInt n p

/-- The `n` bits above them. -/
def productHigh (n : Nat) (p : Int) : BitVec n := BitVec.ofInt n (p / 2 ^ n)

/-- A multiply with exact product `p`, and `high` the value of `CF` and `OF`. -/
def State.multiply (s : State) (w : Width) (p : Int) (high : Bool) (len : Nat) : Result :=
  ((s.setWideAcc w (productHigh w.bits p) (productLow w.bits p)).setFlags (s.flags.mul s.draws high)).advance len

/-- Whether an integer fits a signed `n`-bit value. -/
def fitsSigned (n : Nat) (p : Int) : Bool := decide (-2 ^ (n - 1) ≤ p ∧ p ≤ 2 ^ (n - 1) - 1)

/-- `MUL` by `m` (R204). -/
def State.multiplyUnsigned (s : State) (w : Width) (m : BitVec w.bits) (len : Nat) : Result :=
  s.multiply w ((s.readReg w 0).toNat * m.toNat : Nat) (productHigh w.bits ((s.readReg w 0).toNat * m.toNat : Nat) != 0) len

/-- `IMUL` by `m` (R205). -/
def State.multiplySigned (s : State) (w : Width) (m : BitVec w.bits) (len : Nat) : Result :=
  s.multiply w ((s.readReg w 0).toInt * m.toInt) (!fitsSigned w.bits ((s.readReg w 0).toInt * m.toInt)) len

/-- `MUL r/m` (R204). -/
def execMulRm (w : Width) (rm : RM) (s : State) : Result :=
  s.multiplyUnsigned w (s.readLoc w (rm.loc s)) (2 + rm.dispLen)

/-- `IMUL r/m` (R205). -/
def execImulRm (w : Width) (rm : RM) (s : State) : Result :=
  s.multiplySigned w (s.readLoc w (rm.loc s)) (2 + rm.dispLen)

/-! ### Divides (R206, R207) -/

/-- A completed divide: quotient and remainder into the accumulator, the flags a draw (U2). -/
def State.divided (s : State) (w : Width) (q r : BitVec w.bits) (len : Nat) : Result :=
  ((s.setWideAcc w r q).setFlags (s.flags.div s.draws)).advance len

/-- `DIV` by `v` (R206). -/
def State.divideUnsigned (s : State) (w : Width) (v : BitVec w.bits) (len : Nat) : Result :=
  if v.toNat = 0 then s.divideFault
  else if 2 ^ w.bits ≤ (s.wideAcc w).toNat / v.toNat then s.divideFault
  else
    s.divided w (BitVec.ofNat w.bits ((s.wideAcc w).toNat / v.toNat)) (BitVec.ofNat w.bits ((s.wideAcc w).toNat % v.toNat)) len

/-- `IDIV` by `v` (R207): the quotient truncated toward zero, the remainder `N - q*v`; the most negative quotient is accepted. -/
def State.divideSigned (s : State) (w : Width) (v : BitVec w.bits) (len : Nat) : Result :=
  let num := (s.wideAcc w).toInt
  let q := num.tdiv v.toInt
  if v.toInt = 0 then s.divideFault
  else if fitsSigned w.bits q = false then s.divideFault
  else s.divided w (BitVec.ofInt w.bits q) (BitVec.ofInt w.bits (num - q * v.toInt)) len

/-- `DIV r/m` (R206). -/
def execDivRm (w : Width) (rm : RM) (s : State) : Result :=
  s.divideUnsigned w (s.readLoc w (rm.loc s)) (2 + rm.dispLen)

/-- `IDIV r/m` (R207). -/
def execIdivRm (w : Width) (rm : RM) (s : State) : Result :=
  s.divideSigned w (s.readLoc w (rm.loc s)) (2 + rm.dispLen)

end Sys2Proof.Machine
end

