-- ==== Sys2Proof/Machine/Alu.lean ====
section
/-! DEFINITION. The two-operand operations `ADD OR ADC SBB AND SUB XOR CMP` in their nine forms, and `TEST` (43_alu). -/

namespace Sys2Proof.Machine

/-- Whether an operation stores its result: all but `CMP` (R220, R230). -/
def aluStores (op : AluOp) : Bool :=
  match op with
  | .add => true
  | .or => true
  | .adc => true
  | .sbb => true
  | .and => true
  | .sub => true
  | .xor => true
  | .cmp => false

/-- The common operation (R220): the flags are set, then the result is stored. `d` and `e` are the operands as read. -/
def State.alu (s : State) (op : AluOp) (w : Width) (dst : Loc) (d e : BitVec w.bits) (len : Nat) : Result :=
  if aluStores op then
    (s.setFlags (aluFlags op d e s.flags)).storeThenNext w dst (aluValue op d e s.flags.CF) len
  else (s.setFlags (aluFlags op d e s.flags)).advance len

/-- The forms `r/m, r` and `r, r/m` (R220). -/
def State.aluRmR (s : State) (op : AluOp) (w : Width) (d : Direction) (reg : RegNum) (rm : RM) : Result :=
  s.alu op w (dstLoc d reg rm s) (s.readLoc w (dstLoc d reg rm s)) (s.readLoc w (srcLoc d reg rm s)) (2 + rm.dispLen)

/-- The form `AL, imm8` (R220). -/
def State.aluAlImm8 (s : State) (op : AluOp) (imm : Byte) : Result := s.alu op .byte (.reg 0) (s.readReg .byte 0) imm 2

/-- The form `AX, imm16` (R220). -/
def State.aluAxImm16 (s : State) (op : AluOp) (imm : Word) : Result := s.alu op .word (.reg 0) (s.readReg .word 0) imm 3

/-- The form `r/m8, imm8`, opcodes `80` and `82` (R220). -/
def State.aluRm8Imm8 (s : State) (op : AluOp) (rm : RM) (imm : Byte) : Result :=
  s.alu op .byte (rm.loc s) (s.readLoc .byte (rm.loc s)) imm (3 + rm.dispLen)

/-- The form `r/m16, imm16`, opcode `81` (R220). -/
def State.aluRm16Imm16 (s : State) (op : AluOp) (rm : RM) (imm : Word) : Result :=
  s.alu op .word (rm.loc s) (s.readLoc .word (rm.loc s)) imm (4 + rm.dispLen)

/-- The form `r/m16, imm8` sign-extended, opcode `83` (R220). -/
def State.aluRm16Simm8 (s : State) (op : AluOp) (rm : RM) (imm : Byte) : Result :=
  s.alu op .word (rm.loc s) (s.readLoc .word (rm.loc s)) (imm.signExtend 16) (3 + rm.dispLen)

/-! ### ADD (R223) -/

/-- `ADD r/m, r` and `ADD r, r/m`. -/
def execAddRmR (w : Width) (d : Direction) (reg : RegNum) (rm : RM) (s : State) : Result := s.aluRmR .add w d reg rm

/-- `ADD AL, imm8`. -/
def execAddAlImm8 (imm : Byte) (s : State) : Result := s.aluAlImm8 .add imm

/-- `ADD AX, imm16`. -/
def execAddAxImm16 (imm : Word) (s : State) : Result := s.aluAxImm16 .add imm

/-- `ADD r/m8, imm8`; the opcode `82` does as `80`. -/
def execAddRm8Imm8 (_op82 : Bool) (rm : RM) (imm : Byte) (s : State) : Result := s.aluRm8Imm8 .add rm imm

/-- `ADD r/m16, imm16`. -/
def execAddRm16Imm16 (rm : RM) (imm : Word) (s : State) : Result := s.aluRm16Imm16 .add rm imm

/-- `ADD r/m16, imm8` sign-extended. -/
def execAddRm16Simm8 (rm : RM) (imm : Byte) (s : State) : Result := s.aluRm16Simm8 .add rm imm

/-! ### OR (R224) -/

/-- `OR r/m, r` and `OR r, r/m`. -/
def execOrRmR (w : Width) (d : Direction) (reg : RegNum) (rm : RM) (s : State) : Result := s.aluRmR .or w d reg rm

/-- `OR AL, imm8`. -/
def execOrAlImm8 (imm : Byte) (s : State) : Result := s.aluAlImm8 .or imm

/-- `OR AX, imm16`. -/
def execOrAxImm16 (imm : Word) (s : State) : Result := s.aluAxImm16 .or imm

/-- `OR r/m8, imm8`; the opcode `82` does as `80`. -/
def execOrRm8Imm8 (_op82 : Bool) (rm : RM) (imm : Byte) (s : State) : Result := s.aluRm8Imm8 .or rm imm

/-- `OR r/m16, imm16`. -/
def execOrRm16Imm16 (rm : RM) (imm : Word) (s : State) : Result := s.aluRm16Imm16 .or rm imm

/-- `OR r/m16, imm8` sign-extended. -/
def execOrRm16Simm8 (rm : RM) (imm : Byte) (s : State) : Result := s.aluRm16Simm8 .or rm imm

/-! ### ADC (R225) -/

/-- `ADC r/m, r` and `ADC r, r/m`. -/
def execAdcRmR (w : Width) (d : Direction) (reg : RegNum) (rm : RM) (s : State) : Result := s.aluRmR .adc w d reg rm

/-- `ADC AL, imm8`. -/
def execAdcAlImm8 (imm : Byte) (s : State) : Result := s.aluAlImm8 .adc imm

/-- `ADC AX, imm16`. -/
def execAdcAxImm16 (imm : Word) (s : State) : Result := s.aluAxImm16 .adc imm

/-- `ADC r/m8, imm8`; the opcode `82` does as `80`. -/
def execAdcRm8Imm8 (_op82 : Bool) (rm : RM) (imm : Byte) (s : State) : Result := s.aluRm8Imm8 .adc rm imm

/-- `ADC r/m16, imm16`. -/
def execAdcRm16Imm16 (rm : RM) (imm : Word) (s : State) : Result := s.aluRm16Imm16 .adc rm imm

/-- `ADC r/m16, imm8` sign-extended. -/
def execAdcRm16Simm8 (rm : RM) (imm : Byte) (s : State) : Result := s.aluRm16Simm8 .adc rm imm

/-! ### SBB (R226) -/

/-- `SBB r/m, r` and `SBB r, r/m`. -/
def execSbbRmR (w : Width) (d : Direction) (reg : RegNum) (rm : RM) (s : State) : Result := s.aluRmR .sbb w d reg rm

/-- `SBB AL, imm8`. -/
def execSbbAlImm8 (imm : Byte) (s : State) : Result := s.aluAlImm8 .sbb imm

/-- `SBB AX, imm16`. -/
def execSbbAxImm16 (imm : Word) (s : State) : Result := s.aluAxImm16 .sbb imm

/-- `SBB r/m8, imm8`; the opcode `82` does as `80`. -/
def execSbbRm8Imm8 (_op82 : Bool) (rm : RM) (imm : Byte) (s : State) : Result := s.aluRm8Imm8 .sbb rm imm

/-- `SBB r/m16, imm16`. -/
def execSbbRm16Imm16 (rm : RM) (imm : Word) (s : State) : Result := s.aluRm16Imm16 .sbb rm imm

/-- `SBB r/m16, imm8` sign-extended. -/
def execSbbRm16Simm8 (rm : RM) (imm : Byte) (s : State) : Result := s.aluRm16Simm8 .sbb rm imm

/-! ### AND (R227) -/

/-- `AND r/m, r` and `AND r, r/m`. -/
def execAndRmR (w : Width) (d : Direction) (reg : RegNum) (rm : RM) (s : State) : Result := s.aluRmR .and w d reg rm

/-- `AND AL, imm8`. -/
def execAndAlImm8 (imm : Byte) (s : State) : Result := s.aluAlImm8 .and imm

/-- `AND AX, imm16`. -/
def execAndAxImm16 (imm : Word) (s : State) : Result := s.aluAxImm16 .and imm

/-- `AND r/m8, imm8`; the opcode `82` does as `80`. -/
def execAndRm8Imm8 (_op82 : Bool) (rm : RM) (imm : Byte) (s : State) : Result := s.aluRm8Imm8 .and rm imm

/-- `AND r/m16, imm16`. -/
def execAndRm16Imm16 (rm : RM) (imm : Word) (s : State) : Result := s.aluRm16Imm16 .and rm imm

/-- `AND r/m16, imm8` sign-extended. -/
def execAndRm16Simm8 (rm : RM) (imm : Byte) (s : State) : Result := s.aluRm16Simm8 .and rm imm

/-! ### SUB (R228) -/

/-- `SUB r/m, r` and `SUB r, r/m`. -/
def execSubRmR (w : Width) (d : Direction) (reg : RegNum) (rm : RM) (s : State) : Result := s.aluRmR .sub w d reg rm

/-- `SUB AL, imm8`. -/
def execSubAlImm8 (imm : Byte) (s : State) : Result := s.aluAlImm8 .sub imm

/-- `SUB AX, imm16`. -/
def execSubAxImm16 (imm : Word) (s : State) : Result := s.aluAxImm16 .sub imm

/-- `SUB r/m8, imm8`; the opcode `82` does as `80`. -/
def execSubRm8Imm8 (_op82 : Bool) (rm : RM) (imm : Byte) (s : State) : Result := s.aluRm8Imm8 .sub rm imm

/-- `SUB r/m16, imm16`. -/
def execSubRm16Imm16 (rm : RM) (imm : Word) (s : State) : Result := s.aluRm16Imm16 .sub rm imm

/-- `SUB r/m16, imm8` sign-extended. -/
def execSubRm16Simm8 (rm : RM) (imm : Byte) (s : State) : Result := s.aluRm16Simm8 .sub rm imm

/-! ### XOR (R229) -/

/-- `XOR r/m, r` and `XOR r, r/m`. -/
def execXorRmR (w : Width) (d : Direction) (reg : RegNum) (rm : RM) (s : State) : Result := s.aluRmR .xor w d reg rm

/-- `XOR AL, imm8`. -/
def execXorAlImm8 (imm : Byte) (s : State) : Result := s.aluAlImm8 .xor imm

/-- `XOR AX, imm16`. -/
def execXorAxImm16 (imm : Word) (s : State) : Result := s.aluAxImm16 .xor imm

/-- `XOR r/m8, imm8`; the opcode `82` does as `80`. -/
def execXorRm8Imm8 (_op82 : Bool) (rm : RM) (imm : Byte) (s : State) : Result := s.aluRm8Imm8 .xor rm imm

/-- `XOR r/m16, imm16`. -/
def execXorRm16Imm16 (rm : RM) (imm : Word) (s : State) : Result := s.aluRm16Imm16 .xor rm imm

/-- `XOR r/m16, imm8` sign-extended. -/
def execXorRm16Simm8 (rm : RM) (imm : Byte) (s : State) : Result := s.aluRm16Simm8 .xor rm imm

/-! ### CMP (R230) -/

/-- `CMP r/m, r` and `CMP r, r/m`. -/
def execCmpRmR (w : Width) (d : Direction) (reg : RegNum) (rm : RM) (s : State) : Result := s.aluRmR .cmp w d reg rm

/-- `CMP AL, imm8`. -/
def execCmpAlImm8 (imm : Byte) (s : State) : Result := s.aluAlImm8 .cmp imm

/-- `CMP AX, imm16`. -/
def execCmpAxImm16 (imm : Word) (s : State) : Result := s.aluAxImm16 .cmp imm

/-- `CMP r/m8, imm8`; the opcode `82` does as `80`. -/
def execCmpRm8Imm8 (_op82 : Bool) (rm : RM) (imm : Byte) (s : State) : Result := s.aluRm8Imm8 .cmp rm imm

/-- `CMP r/m16, imm16`. -/
def execCmpRm16Imm16 (rm : RM) (imm : Word) (s : State) : Result := s.aluRm16Imm16 .cmp rm imm

/-- `CMP r/m16, imm8` sign-extended. -/
def execCmpRm16Simm8 (rm : RM) (imm : Byte) (s : State) : Result := s.aluRm16Simm8 .cmp rm imm

/-! ### TEST (R231, R232) -/

/-- `TEST r/m, reg` (R231). -/
def execTestRmR (w : Width) (reg : RegNum) (rm : RM) (s : State) : Result :=
  s.testValues (s.readLoc w (rm.loc s)) (s.readReg w reg) (2 + rm.dispLen)

/-- `TEST AL, imm8` (R232). -/
def execTestAlImm8 (imm : Byte) (s : State) : Result := s.testValues (s.readReg .byte 0) imm 2

/-- `TEST AX, imm16` (R232). -/
def execTestAxImm16 (imm : Word) (s : State) : Result := s.testValues (s.readReg .word 0) imm 3

end Sys2Proof.Machine
end

