-- ==== Sys2Proof/Machine/Bcd.lean ====
section
/-! DEFINITION. Decimal and ASCII adjustment (47_bcd). -/

namespace Sys2Proof.Machine

/-- `DAA` (R341). -/
def execDaa (s : State) : Result :=
  let al := daaValue s.AL s.flags.AF s.flags.CF
  ((s.setReg8 0 al).setFlags
    (s.flags.decimal s.draws al (lowDigitAdjusts s.AL s.flags.AF) (highDigitAdjusts s.AL s.flags.CF))).advance 1

/-- `DAS` (R342). -/
def execDas (s : State) : Result :=
  let al := dasValue s.AL s.flags.AF s.flags.CF
  ((s.setReg8 0 al).setFlags
    (s.flags.decimal s.draws al (lowDigitAdjusts s.AL s.flags.AF) (dasCarry s.AL s.flags.AF s.flags.CF))).advance 1

/-- `AAA` and `AAS` with the adjusted value of `AX`: then `AL <- AL & 0x0F` (R343, R344). -/
def State.asciiAdjust (s : State) (adjusted : Word) : Result :=
  let adj := lowDigitAdjusts s.AL s.flags.AF
  let t := if adj then s.setReg .ax adjusted else s
  ((t.setReg8 0 (t.AL &&& 0x0F)).setFlags (s.flags.asciiAdjust s.draws adj)).advance 1

/-- `AAA` (R343): a 16-bit addition of `0x0106` to `AX`. -/
def execAaa (s : State) : Result := s.asciiAdjust (s.reg .ax + 0x0106)

/-- `AAS` (R344): a 16-bit subtraction of `0x0106` from `AX`. -/
def execAas (s : State) : Result := s.asciiAdjust (s.reg .ax - 0x0106)

/-- `AAM imm8` (R345). -/
def execAam (base : Byte) (s : State) : Result :=
  if base = 0 then s.divideFault
  else
    let t := (s.setReg8 4 (BitVec.ofNat 8 (s.AL.toNat / base.toNat))).setReg8 0 (BitVec.ofNat 8 (s.AL.toNat % base.toNat))
    (t.setFlags (s.flags.asciiBase s.draws t.AL)).advance 2

/-- `AAD imm8` (R346). -/
def execAad (base : Byte) (s : State) : Result :=
  let t := (s.setReg8 0 (s.AL + s.AH * base)).setReg8 4 0
  (t.setFlags (s.flags.asciiBase s.draws t.AL)).advance 2

end Sys2Proof.Machine
end

