-- ==== Sys2Proof/Machine/CondJump.lean ====
section
/-! DEFINITION. The conditional jumps `70..7F` (40_cond_jump). -/

namespace Sys2Proof.Machine

/-- A flag cell selected by a predicate table, or the constant-zero cell (40_cond_jump R131). -/
def selected (f : Flags) (x : Option Flag) : Bool :=
  match x with
  | none => false
  | some x => f.get x

/-- `pred(k)` (40_cond_jump R131): `A or B or (C xor D)` of the four selected cells. -/
def jumpPred (f : Flags) (a b c d : Option Flag) : Bool :=
  selected f a || selected f b || (selected f c ^^ selected f d)

/-- `pred(k)` of the class `k = op[3:1]` of a condition, by the table of 40_cond_jump R131. -/
def condPred (c : Cond) (f : Flags) : Bool :=
  match c with
  | .o => jumpPred f (some .of) none none none
  | .no => jumpPred f (some .of) none none none
  | .b => jumpPred f (some .cf) none none none
  | .ae => jumpPred f (some .cf) none none none
  | .e => jumpPred f (some .zf) none none none
  | .ne => jumpPred f (some .zf) none none none
  | .be => jumpPred f (some .cf) (some .zf) none none
  | .a => jumpPred f (some .cf) (some .zf) none none
  | .s => jumpPred f (some .sf) none none none
  | .ns => jumpPred f (some .sf) none none none
  | .p => jumpPred f (some .pf) none none none
  | .np => jumpPred f (some .pf) none none none
  | .l => jumpPred f none none (some .sf) (some .of)
  | .ge => jumpPred f none none (some .sf) (some .of)
  | .le => jumpPred f none (some .zf) (some .sf) (some .of)
  | .g => jumpPred f none (some .zf) (some .sf) (some .of)

/-- The invert bit `op[0]` of a condition (40_cond_jump R130). -/
def condInverts (c : Cond) : Bool := c.num % 2 == 1

/-- `cond = inv XOR pred(k)` (40_cond_jump R130). -/
def condHolds (c : Cond) (f : Flags) : Bool := condInverts c ^^ condPred c f

/-- A jump by `rel8` if `taken` holds, for an instruction of two bytes (40_cond_jump R130, 46_control_transfer R301). -/
def State.branch (s : State) (taken : Bool) (rel : Byte) : Result :=
  if taken then s.jump 2 rel.toInt else s.advance 2

/-- The operation common to the sixteen (40_cond_jump R130). -/
def State.jumpIf (s : State) (c : Cond) (rel : Byte) : Result := s.branch (condHolds c s.flags) rel

/-- `JO` (R132). -/
def execJo (rel : Byte) (s : State) : Result := s.jumpIf .o rel

/-- `JNO` (R133). -/
def execJno (rel : Byte) (s : State) : Result := s.jumpIf .no rel

/-- `JB` (R134). -/
def execJb (rel : Byte) (s : State) : Result := s.jumpIf .b rel

/-- `JAE` (R135). -/
def execJae (rel : Byte) (s : State) : Result := s.jumpIf .ae rel

/-- `JE` (R136). -/
def execJe (rel : Byte) (s : State) : Result := s.jumpIf .e rel

/-- `JNE` (R137). -/
def execJne (rel : Byte) (s : State) : Result := s.jumpIf .ne rel

/-- `JBE` (R138). -/
def execJbe (rel : Byte) (s : State) : Result := s.jumpIf .be rel

/-- `JA` (R139). -/
def execJa (rel : Byte) (s : State) : Result := s.jumpIf .a rel

/-- `JS` (R140). -/
def execJs (rel : Byte) (s : State) : Result := s.jumpIf .s rel

/-- `JNS` (R141). -/
def execJns (rel : Byte) (s : State) : Result := s.jumpIf .ns rel

/-- `JP` (R142). -/
def execJp (rel : Byte) (s : State) : Result := s.jumpIf .p rel

/-- `JNP` (R143). -/
def execJnp (rel : Byte) (s : State) : Result := s.jumpIf .np rel

/-- `JL` (R144). -/
def execJl (rel : Byte) (s : State) : Result := s.jumpIf .l rel

/-- `JGE` (R145). -/
def execJge (rel : Byte) (s : State) : Result := s.jumpIf .ge rel

/-- `JLE` (R146). -/
def execJle (rel : Byte) (s : State) : Result := s.jumpIf .le rel

/-- `JG` (R147). -/
def execJg (rel : Byte) (s : State) : Result := s.jumpIf .g rel

end Sys2Proof.Machine
end

