-- ==== Sys2Proof/Machine/Control.lean ====
section
/-! DEFINITION. Loops, jumps, calls, returns and software interrupts (46_control_transfer). -/

namespace Sys2Proof.Machine

/-! ### Loops (R301 to R304) -/

/-- `CX <- (CX - 1) mod 2^16`. -/
def State.decCX (s : State) : State := s.setReg .cx (s.reg .cx - 1#16)

/-- `LOOPNE rel8` (R301). -/
def execLoopne (rel : Byte) (s : State) : Result := s.decCX.branch (s.decCX.reg .cx != 0 && !s.flags.ZF) rel

/-- `LOOPE rel8` (R302). -/
def execLoope (rel : Byte) (s : State) : Result := s.decCX.branch (s.decCX.reg .cx != 0 && s.flags.ZF) rel

/-- `LOOP rel8` (R303). -/
def execLoop (rel : Byte) (s : State) : Result := s.decCX.branch (s.decCX.reg .cx != 0) rel

/-- `JCXZ rel8` (R304). -/
def execJcxz (rel : Byte) (s : State) : Result := s.branch (s.reg .cx == 0) rel

/-! ### Jumps (R305 to R309) -/

/-- `SetIP` of a 16-bit value. -/
def State.goTo (s : State) (off : Word) : Result := s.setIP off.toNat

/-- `CS <- seg; SetIP(off)`. -/
def State.goToFar (s : State) (seg off : Word) : Result := (s.setReg .cs seg).goTo off

/-- `JMP short rel8` (R305). -/
def execJmpRel8 (rel : Byte) (s : State) : Result := s.jump 2 rel.toInt

/-- `JMP near rel16` (R306). `rel16` is signed, as 30_encoding R97, R300 (a), R306 and the vector row CT17 say; the example
`E9 00 F0` of 70_reset_and_hazards R448 reads it as unsigned. DESIGN CHOICE: log 22. -/
def execJmpRel16 (rel : Word) (s : State) : Result := s.jump 3 rel.toInt

/-- `JMP far seg:off` (R307). -/
def execJmpPtr (off seg : Word) (s : State) : Result := s.goToFar seg off

/-- `JMP r/m16` (R308). -/
def execJmpRm16 (rm : RM) (s : State) : Result := s.goTo (s.readLoc .word (rm.loc s))

/-- `JMP far m16:16` (R309). -/
def execJmpM1616 (m : MemOperand) (s : State) : Result :=
  s.goToFar (s.farSegment (m.addr s)) (s.farOffset (m.addr s))

/-! ### Calls (R310 to R313) -/

/-- `Push16(CS); Push16(next); CS <- seg; SetIP(off)` (R311). -/
def State.callFar (s : State) (len : Nat) (seg off : Word) : Result :=
  s.withReturn len fun ret =>
  andThen (s.push16 (s.reg .cs)) fun s =>
  andThen (s.push16 ret) fun s =>
  s.goToFar seg off

/-- `CALL near rel16` (R310); `rel16` is signed, as in `JMP near rel16` (log 22). -/
def execCallRel16 (rel : Word) (s : State) : Result :=
  s.withReturn 3 fun ret => andThen (s.push16 ret) fun s => s.jump 3 rel.toInt

/-- `CALL far seg:off` (R311). -/
def execCallPtr (off seg : Word) (s : State) : Result := s.callFar 5 seg off

/-- `CALL r/m16` (R312): the target is read before the push. -/
def execCallRm16 (rm : RM) (s : State) : Result :=
  s.withReturn (2 + rm.dispLen) fun ret => andThen (s.push16 ret) fun t => t.goTo (s.readLoc .word (rm.loc s))

/-- `CALL far m16:16` (R313): both words are read before the pushes. -/
def execCallM1616 (m : MemOperand) (s : State) : Result :=
  s.callFar (2 + m.dispLen) (s.farSegment (m.addr s)) (s.farOffset (m.addr s))

/-! ### Returns (R314 to R317) -/

/-- `SP <- (SP + imm16) mod 2^16`. -/
def State.release (s : State) (n : Word) : State := s.setReg .sp (s.reg .sp + n)

/-- `RET` (R314). -/
def execRet (s : State) : Result := s.pop16.goTo s.stackTop

/-- `RET imm16` (R315). -/
def execRetImm16 (imm : Word) (s : State) : Result := (s.pop16.release imm).goTo s.stackTop

/-- `RETF` (R316). -/
def execRetf (s : State) : Result := (s.pop16.pop16.setReg .cs s.pop16.stackTop).goTo s.stackTop

/-- `RETF imm16` (R317). -/
def execRetfImm16 (imm : Word) (s : State) : Result :=
  ((s.pop16.pop16.setReg .cs s.pop16.stackTop).release imm).goTo s.stackTop

/-! ### Software interrupts and interrupt return (R318 to R321) -/

/-- `SetIP(next); deliver(v)` (60_exceptions R406). -/
def State.interrupt (s : State) (len : Nat) (v : Byte) : Result := andThen (s.advance len) fun s => s.deliver v

/-- `INT imm8` (R318). -/
def execInt (v : Byte) (s : State) : Result := s.interrupt 2 v

/-- `INT3` (R319). -/
def execInt3 (s : State) : Result := s.interrupt 1 3

/-- `INTO` (R320). -/
def execInto (s : State) : Result := if s.flags.OF then s.interrupt 1 4 else s.advance 1

/-- `IRET` (R321). -/
def execIret (s : State) : Result := s.interruptReturn

end Sys2Proof.Machine
end

