-- ==== Sys2Proof/Machine/IoMisc.lean ====
section
/-! DEFINITION. Port input and output, flag instructions, `HLT WAIT ESC`, and the `0F` hooks (48_io_flags_misc). -/

namespace Sys2Proof.Machine

/-! ### Ports (R350 to R353) -/

/-- `IN AL/AX, imm8` (R350). -/
def execInAccImm8 (w : Width) (port : Byte) (s : State) : Result := (s.portRead w (port.setWidth 16)).advance 2

/-- `IN AL/AX, DX` (R351). -/
def execInAccDx (w : Width) (s : State) : Result := (s.portRead w (s.reg .dx)).advance 1

/-- `OUT imm8, AL/AX` (R352). -/
def execOutImm8Acc (w : Width) (port : Byte) (s : State) : Result :=
  (s.portWrite w (port.setWidth 16) (s.readReg w 0)).advance 2

/-- `OUT DX, AL/AX` (R353). -/
def execOutDxAcc (w : Width) (s : State) : Result := (s.portWrite w (s.reg .dx) (s.readReg w 0)).advance 1

/-! ### Flags (R354 to R360) -/

/-- `CLC` (R354). -/
def execClc (s : State) : Result := (s.setFlags { s.flags with CF := false }).advance 1

/-- `STC` (R355). -/
def execStc (s : State) : Result := (s.setFlags { s.flags with CF := true }).advance 1

/-- `CLI` (R356). -/
def execCli (s : State) : Result := (s.setFlags { s.flags with IF := false }).advance 1

/-- `STI` (R357). -/
def execSti (s : State) : Result := (s.setFlags { s.flags with IF := true }).advance 1

/-- `CLD` (R358). -/
def execCld (s : State) : Result := (s.setFlags { s.flags with DF := false }).advance 1

/-- `STD` (R359). -/
def execStd (s : State) : Result := (s.setFlags { s.flags with DF := true }).advance 1

/-- `CMC` (R360). -/
def execCmc (s : State) : Result := (s.setFlags { s.flags with CF := !s.flags.CF }).advance 1

/-! ### `HLT WAIT ESC` (R361 to R363) -/

/-- `HLT` (R361): nothing but `IP` changes. -/
def execHlt (s : State) : Result := s.advance 1

/-- `WAIT` (R362): nothing but `IP` changes. -/
def execWait (s : State) : Result := s.advance 1

/-- `ESC` (R363): the operand gives the length only. -/
def execEsc (_x : Fin 8) (_reg : RegNum) (rm : RM) (s : State) : Result := s.advance (2 + rm.dispLen)

/-! ### The `0F` hooks (R364 to R368); a hook's answers are free values (log 15, log 16) -/

/-- `PUTCHAR` (R365). -/
def execPutchar (s : State) : Result := (s.callHook (.charOut s.AL)).advance 2

/-- The clock record (R366, 60_exceptions R422): 40 bytes, of which bytes 32 to 35, the DST field, are 0. -/
def clockRecord (draw i : Nat) : Byte := if 32 ≤ i ∧ i < 36 then 0 else Config.clockByte draw i

/-- `GET_RTC` (R366): the record at `ES:BX`, the address computed once (log 20), then the millisecond counter at `RTC_MS_ADDR`. -/
def execGetTime (s : State) : Result :=
  andThen ((s.callHook .clock).writeBytes s.hookBuffer (clockRecord s.draws) 0 40) fun t =>
  andThen (t.writeBytes s.params.rtcMsAddr (Config.clockMsByte s.draws) 0 s.params.rtcMsLen) fun t =>
  t.advance 2

/-- `BP * 512`, the byte offset on the medium (R367). -/
def State.diskOffset (s : State) : Nat := (s.reg .bp).toNat * 512

/-- `k`, the number of bytes the host transfers, at most the length asked for (R367). -/
def diskTransferred (len : Word) (draw : Nat) : Nat := min len.toNat (Config.diskCount draw)

/-- `DISK_READ` (R367): the transferred bytes at `ES:BX`, the address computed once (log 20), then `AL` the low byte of the
result. -/
def execDiskRead (s : State) : Result :=
  let call := HostCall.disk (s.reg8 2) .read s.hookBuffer s.diskOffset (s.reg .ax) []
  andThen ((s.callHook call).writeBytes s.hookBuffer (Config.diskByte s.draws) 0 (diskTransferred (s.reg .ax) s.draws)) fun t =>
  (t.setReg8 0 (Config.diskResult s.draws)).advance 2

/-- `DISK_WRITE` (R368): `AL` is the low byte of the result; no byte of memory changes. -/
def execDiskWrite (s : State) : Result :=
  let call :=
    HostCall.disk (s.reg8 2) .write s.hookBuffer s.diskOffset (s.reg .ax) (s.bufferBytes s.hookBuffer (s.reg .ax).toNat)
  ((s.callHook call).setReg8 0 (Config.diskResult s.draws)).advance 2

end Sys2Proof.Machine
end

