-- ==== Sys2Proof/Machine/Reserved.lean ====
section
/-! DEFINITION. The reserved encodings (30_encoding R104, U13): a model must refuse them. Each has a meaning of its own. -/

namespace Sys2Proof.Machine

/-- Reserved: `0F` with a sub-code of 4 or above (R369). -/
def execReserved0F (_sub : Byte) (_s : State) : Result := .refused .reservedEncoding

/-- Reserved: first bytes `60..6F` (R370). -/
def execReserved60to6F (_x : Fin 16) (_s : State) : Result := .refused .reservedEncoding

/-- Reserved: `8C` with `reg >= 4` (R371). -/
def execReserved8C (_m : ModRM) (_s : State) : Result := .refused .reservedEncoding

/-- Reserved: `8D` with `mod = 3` (R371). -/
def execReserved8D (_reg _rm : RegNum) (_s : State) : Result := .refused .reservedEncoding

/-- Reserved: `8E` with `reg >= 4` (R371). -/
def execReserved8E (_m : ModRM) (_s : State) : Result := .refused .reservedEncoding

/-- Reserved: `8F /1` to `/7` (R371). -/
def execReserved8F (_m : ModRM) (_s : State) : Result := .refused .reservedEncoding

/-- Reserved: `C0 /6`, `C1 /6` (R288). -/
def execReservedC0C1 (_w : Width) (_mod : Fin 4) (_rm : RegNum) (_s : State) : Result := .refused .reservedEncoding

/-- Reserved: `C4` with `mod = 3` (R371). -/
def execReservedC4 (_reg _rm : RegNum) (_s : State) : Result := .refused .reservedEncoding

/-- Reserved: `C5` with `mod = 3` (R371). -/
def execReservedC5 (_reg _rm : RegNum) (_s : State) : Result := .refused .reservedEncoding

/-- Reserved: `C6 /1` to `/7` (R371). -/
def execReservedC6 (_m : ModRM) (_s : State) : Result := .refused .reservedEncoding

/-- Reserved: `C7 /1` to `/7` (R371). -/
def execReservedC7 (_m : ModRM) (_s : State) : Result := .refused .reservedEncoding

/-- Reserved: first bytes `C8`, `C9` (R370). -/
def execReservedC8C9 (_x : Fin 2) (_s : State) : Result := .refused .reservedEncoding

/-- Reserved: `D0..D3 /6` (R288). -/
def execReservedD0toD3 (_w : Width) (_count : ShiftCount) (_mod : Fin 4) (_rm : RegNum) (_s : State) : Result := .refused .reservedEncoding

/-- Reserved: first byte `D6` (R370). -/
def execReservedD6 (_s : State) : Result := .refused .reservedEncoding

/-- Reserved: first byte `F1` (R370). -/
def execReservedF1 (_s : State) : Result := .refused .reservedEncoding

/-- Reserved: `F6 /1`, `F7 /1` (R371). -/
def execReservedF6F7 (_w : Width) (_mod : Fin 4) (_rm : RegNum) (_s : State) : Result := .refused .reservedEncoding

/-- Reserved: `FE /2` to `/7` (R371). -/
def execReservedFE (_m : ModRM) (_s : State) : Result := .refused .reservedEncoding

/-- Reserved: `FF /3` with `mod = 3` (R371). -/
def execReservedFF3 (_rm : RegNum) (_s : State) : Result := .refused .reservedEncoding

/-- Reserved: `FF /5` with `mod = 3` (R371). -/
def execReservedFF5 (_rm : RegNum) (_s : State) : Result := .refused .reservedEncoding

/-- Reserved: `FF /7` (R371). -/
def execReservedFF7 (_mod : Fin 4) (_rm : RegNum) (_s : State) : Result := .refused .reservedEncoding

end Sys2Proof.Machine
end

