-- ==== Sys2Proof/Machine/Shift.lean ====
section
/-! DEFINITION. Shifts and rotates (45_shift_rotate). -/

namespace Sys2Proof.Machine

/-- The common operation (R280, R289): a count of 0 changes nothing but `IP`; otherwise the result is stored, then the flags are
set. The carry that `RCL` and `RCR` rotate through is the one before the store. -/
def State.shift (s : State) (op : ShiftOp) (w : Width) (l : Loc) (c0 len : Nat) : Result :=
  if c0 = 0 then s.advance len
  else
    andThen (s.writeLoc w l (shiftValue op (s.readLoc w l) s.flags.CF c0)) fun t =>
    (t.setFlags (shiftFlags op (s.readLoc w l) s.flags.CF c0 s.draws t.flags)).advance len

/-- The forms `r/m, 1` and `r/m, CL`, opcodes `D0..D3` (R280). -/
def State.shiftRm (s : State) (op : ShiftOp) (w : Width) (count : ShiftCount) (rm : RM) : Result :=
  s.shift op w (rm.loc s) (s.shiftCount count) (2 + rm.dispLen)

/-- The form `r/m, imm8`, opcodes `C0 C1` (R280). -/
def State.shiftRmImm8 (s : State) (op : ShiftOp) (w : Width) (rm : RM) (imm : Byte) : Result :=
  s.shift op w (rm.loc s) (maskedCount imm) (3 + rm.dispLen)

/-- `ROL r/m, 1` and `ROL r/m, CL` (R281). -/
def execRolRm (w : Width) (count : ShiftCount) (rm : RM) (s : State) : Result := s.shiftRm .rol w count rm

/-- `ROL r/m, imm8` (R281). -/
def execRolRmImm8 (w : Width) (rm : RM) (imm : Byte) (s : State) : Result := s.shiftRmImm8 .rol w rm imm

/-- `ROR r/m, 1` and `ROR r/m, CL` (R282). -/
def execRorRm (w : Width) (count : ShiftCount) (rm : RM) (s : State) : Result := s.shiftRm .ror w count rm

/-- `ROR r/m, imm8` (R282). -/
def execRorRmImm8 (w : Width) (rm : RM) (imm : Byte) (s : State) : Result := s.shiftRmImm8 .ror w rm imm

/-- `RCL r/m, 1` and `RCL r/m, CL` (R283). -/
def execRclRm (w : Width) (count : ShiftCount) (rm : RM) (s : State) : Result := s.shiftRm .rcl w count rm

/-- `RCL r/m, imm8` (R283). -/
def execRclRmImm8 (w : Width) (rm : RM) (imm : Byte) (s : State) : Result := s.shiftRmImm8 .rcl w rm imm

/-- `RCR r/m, 1` and `RCR r/m, CL` (R284). -/
def execRcrRm (w : Width) (count : ShiftCount) (rm : RM) (s : State) : Result := s.shiftRm .rcr w count rm

/-- `RCR r/m, imm8` (R284). -/
def execRcrRmImm8 (w : Width) (rm : RM) (imm : Byte) (s : State) : Result := s.shiftRmImm8 .rcr w rm imm

/-- `SHL r/m, 1` and `SHL r/m, CL` (R285). -/
def execShlRm (w : Width) (count : ShiftCount) (rm : RM) (s : State) : Result := s.shiftRm .shl w count rm

/-- `SHL r/m, imm8` (R285). -/
def execShlRmImm8 (w : Width) (rm : RM) (imm : Byte) (s : State) : Result := s.shiftRmImm8 .shl w rm imm

/-- `SHR r/m, 1` and `SHR r/m, CL` (R286). -/
def execShrRm (w : Width) (count : ShiftCount) (rm : RM) (s : State) : Result := s.shiftRm .shr w count rm

/-- `SHR r/m, imm8` (R286). -/
def execShrRmImm8 (w : Width) (rm : RM) (imm : Byte) (s : State) : Result := s.shiftRmImm8 .shr w rm imm

/-- `SAR r/m, 1` and `SAR r/m, CL` (R287). -/
def execSarRm (w : Width) (count : ShiftCount) (rm : RM) (s : State) : Result := s.shiftRm .sar w count rm

/-- `SAR r/m, imm8` (R287). -/
def execSarRmImm8 (w : Width) (rm : RM) (imm : Byte) (s : State) : Result := s.shiftRmImm8 .sar w rm imm

end Sys2Proof.Machine
end

