-- ==== Sys2Proof/Machine/Strings.lean ====
section
/-! DEFINITION. String instructions and prefixes (44_string_prefix). -/

namespace Sys2Proof.Machine

/-! ### Elements and indices (R250, R251) -/

/-- The linear address of the source element: `DS:SI`, the segment overridable. -/
def State.srcElement (s : State) : Addr := s.dataAddr .ds (s.reg .si)

/-- The linear address of the destination element: `ES:DI`. -/
def State.dstElement (s : State) : Addr := lin (s.reg .es) (s.reg .di)

/-- An index after one element of width `w` (R251), modulo 2^16. -/
def stepIndex (df : Bool) (w : Width) (i : Word) : Word :=
  if df then i - BitVec.ofNat 16 w.bytes else i + BitVec.ofNat 16 w.bytes

/-- The update of `SI` (R251); `DF` is read here (log 19). -/
def State.stepSI (s : State) (w : Width) : State := s.setReg .si (stepIndex s.flags.DF w (s.reg .si))

/-- The update of `DI` (R251); `DF` is read here (log 19). -/
def State.stepDI (s : State) (w : Width) : State := s.setReg .di (stepIndex s.flags.DF w (s.reg .di))

/-! ### `MOVS`, `STOS`, `LODS` (R252, R254 to R256) -/

/-- The body of `MOVS` (R254). -/
def State.movsBody (s : State) (w : Width) : Result :=
  andThen (s.writeMem w s.dstElement (s.readMem w s.srcElement)) fun s => .next ((s.stepSI w).stepDI w)

/-- The body of `STOS` (R255). -/
def State.stosBody (s : State) (w : Width) : Result :=
  andThen (s.writeMem w s.dstElement (s.readReg w 0)) fun s => .next (s.stepDI w)

/-- The body of `LODS` (R256). -/
def State.lodsBody (s : State) (w : Width) : Result :=
  .next ((s.writeReg w 0 (s.readMem w s.srcElement)).stepSI w)

/-- The body `n` times, each time with draws of its own. -/
def repeatBody (body : State → Result) (n : Nat) (s : State) : Result :=
  match n with
  | 0 => .next s
  | n + 1 => andThen (body s) fun s => repeatBody body n s.nextDraw

/-- Repetition without compare (R252): `CX` is read once before the first iteration and cleared after the last. -/
def State.repeated (s : State) (body : State → Result) : Result :=
  if s.repCnt ≠ 0 then
    andThen (repeatBody body (s.reg .cx).toNat s) fun s => (s.setReg .cx 0).advance 1
  else andThen (body s) fun s => s.advance 1

/-- `MOVSB`, `MOVSW` (R254). -/
def execMovs (w : Width) (s : State) : Result := s.repeated fun s => s.movsBody w

/-- `STOSB`, `STOSW` (R255). -/
def execStos (w : Width) (s : State) : Result := s.repeated fun s => s.stosBody w

/-- `LODSB`, `LODSW` (R256). -/
def execLods (w : Width) (s : State) : Result := s.repeated fun s => s.lodsBody w

/-! ### `CMPS`, `SCAS` (R253, R257, R258) -/

/-- The pair `d, s` of `CMPS` (R257): the source element is the minuend. The second element is read with a draw of its own. -/
def State.cmpsPair (s : State) (w : Width) : BitVec w.bits × BitVec w.bits :=
  (s.readMem w s.srcElement, s.nextDraw.readMem w s.dstElement)

/-- The index update of `CMPS`. -/
def State.cmpsStep (s : State) (w : Width) : State := (s.nextDraw.stepSI w).stepDI w

/-- The pair `d, s` of `SCAS` (R258): the accumulator is the minuend. -/
def State.scasPair (s : State) (w : Width) : BitVec w.bits × BitVec w.bits :=
  (s.readReg w 0, s.readMem w s.dstElement)

/-- The index update of `SCAS`. -/
def State.scasStep (s : State) (w : Width) : State := s.stepDI w

/-- The end tests of the compare loop, after `CX` was decremented (R253). -/
def State.compareEnds {n : Nat} (s : State) (d e : BitVec n) : Bool :=
  s.reg .cx == 0 || ((d - e == 0) != (s.repMode == .repe))

/-- The loop of R253 with a repeat prefix, at most `n + 1` iterations: the state it leaves and the last pair compared. -/
def compareLoop {w : Width} (pair : State → BitVec w.bits × BitVec w.bits) (update : State → State) (n : Nat) (s : State) :
    State × BitVec w.bits × BitVec w.bits :=
  let t := (update s).setReg .cx ((update s).reg .cx - 1#16)
  match n with
  | 0 => (t, pair s)
  | n + 1 => if t.compareEnds (pair s).1 (pair s).2 then (t, pair s) else compareLoop pair update n t.nextDraw

/-- The flags of the last pair compared, then `SetIP(next)` (R253). -/
def State.compared {n : Nat} (s : State) (d e : BitVec n) : Result :=
  (s.setFlags (aluFlags .cmp d e s.flags)).advance 1

/-- Repetition with compare (R253). -/
def State.compareRepeated (s : State) (w : Width) (pair : State → BitVec w.bits × BitVec w.bits) (update : State → State) :
    Result :=
  if s.repCnt ≠ 0 then
    if s.reg .cx = 0 then s.advance 1
    else
      let r := compareLoop pair update ((s.reg .cx).toNat - 1) s
      r.1.compared r.2.1 r.2.2
  else (update s).compared (pair s).1 (pair s).2

/-- `CMPSB`, `CMPSW` (R257). -/
def execCmps (w : Width) (s : State) : Result :=
  s.compareRepeated w (fun s => s.cmpsPair w) fun s => s.cmpsStep w

/-- `SCASB`, `SCASW` (R258). -/
def execScas (w : Width) (s : State) : Result :=
  s.compareRepeated w (fun s => s.scasPair w) fun s => s.scasStep w

/-! ### Prefixes (R260 to R263); the decrement of R260 is `State.startCycle` (Machine/Cycle.lean) -/

/-- "extend each other's lifetime when combined" (R261, R262). -/
def extendCount (n : Nat) : Nat := if n ≠ 0 then n + 1 else n

/-- Segment override (R261). -/
def execSegOverride (sr : SReg) (s : State) : Result :=
  { s with segOvrCnt := 2, segOvrReg := sr, repCnt := extendCount s.repCnt }.advance 1

/-- `REPNE`, `REPE` (R262). -/
def execRep (mode : RepMode) (s : State) : Result :=
  { s with repCnt := 2, repMode := mode, segOvrCnt := extendCount s.segOvrCnt }.advance 1

/-- `LOCK` (R263). -/
def execLock (s : State) : Result := s.advance 1

end Sys2Proof.Machine
end

