-- ==== Sys2Proof/Machine/Dispatch.lean ====
section
/-! DEFINITION. Which meaning each instruction has: one call for each constructor of `Instr`. -/

namespace Sys2Proof.Machine

/-- The meaning of an instruction: the lines "perform the pseudocode of the instruction's rule" of 60_exceptions R419. -/
def exec (i : Instr) (s : State) : Host.Outcome State Fault Refusal :=
  match i with
  | .jo rel => Sys2Proof.Machine.execJo rel s
  | .jno rel => Sys2Proof.Machine.execJno rel s
  | .jb rel => Sys2Proof.Machine.execJb rel s
  | .jae rel => Sys2Proof.Machine.execJae rel s
  | .je rel => Sys2Proof.Machine.execJe rel s
  | .jne rel => Sys2Proof.Machine.execJne rel s
  | .jbe rel => Sys2Proof.Machine.execJbe rel s
  | .ja rel => Sys2Proof.Machine.execJa rel s
  | .js rel => Sys2Proof.Machine.execJs rel s
  | .jns rel => Sys2Proof.Machine.execJns rel s
  | .jp rel => Sys2Proof.Machine.execJp rel s
  | .jnp rel => Sys2Proof.Machine.execJnp rel s
  | .jl rel => Sys2Proof.Machine.execJl rel s
  | .jge rel => Sys2Proof.Machine.execJge rel s
  | .jle rel => Sys2Proof.Machine.execJle rel s
  | .jg rel => Sys2Proof.Machine.execJg rel s
  | .movRmR w reg rm => Sys2Proof.Machine.execMovRmR w reg rm s
  | .movRRm w reg rm => Sys2Proof.Machine.execMovRRm w reg rm s
  | .movRm8Imm8 rm imm => Sys2Proof.Machine.execMovRm8Imm8 rm imm s
  | .movRm16Imm16 rm imm => Sys2Proof.Machine.execMovRm16Imm16 rm imm s
  | .movR8Imm8 r imm => Sys2Proof.Machine.execMovR8Imm8 r imm s
  | .movR16Imm16 r imm => Sys2Proof.Machine.execMovR16Imm16 r imm s
  | .movAccMoffs w addr => Sys2Proof.Machine.execMovAccMoffs w addr s
  | .movMoffsAcc w addr => Sys2Proof.Machine.execMovMoffsAcc w addr s
  | .movRm16Sreg sr rm => Sys2Proof.Machine.execMovRm16Sreg sr rm s
  | .movSregRm16 sr rm => Sys2Proof.Machine.execMovSregRm16 sr rm s
  | .pushR16 r => Sys2Proof.Machine.execPushR16 r s
  | .popR16 r => Sys2Proof.Machine.execPopR16 r s
  | .pushSreg sr => Sys2Proof.Machine.execPushSreg sr s
  | .popEs => Sys2Proof.Machine.execPopEs s
  | .popSs => Sys2Proof.Machine.execPopSs s
  | .popDs => Sys2Proof.Machine.execPopDs s
  | .pushRm16 rm => Sys2Proof.Machine.execPushRm16 rm s
  | .popRm16 rm => Sys2Proof.Machine.execPopRm16 rm s
  | .pushf => Sys2Proof.Machine.execPushf s
  | .popf => Sys2Proof.Machine.execPopf s
  | .lahf => Sys2Proof.Machine.execLahf s
  | .sahf => Sys2Proof.Machine.execSahf s
  | .xchgAxR16 r => Sys2Proof.Machine.execXchgAxR16 r s
  | .nop => Sys2Proof.Machine.execNop s
  | .xchgRmR w reg rm => Sys2Proof.Machine.execXchgRmR w reg rm s
  | .lea reg m => Sys2Proof.Machine.execLea reg m s
  | .les reg m => Sys2Proof.Machine.execLes reg m s
  | .lds reg m => Sys2Proof.Machine.execLds reg m s
  | .xlat => Sys2Proof.Machine.execXlat s
  | .cbw => Sys2Proof.Machine.execCbw s
  | .cwd => Sys2Proof.Machine.execCwd s
  | .incR16 r => Sys2Proof.Machine.execIncR16 r s
  | .decR16 r => Sys2Proof.Machine.execDecR16 r s
  | .incRm w rm => Sys2Proof.Machine.execIncRm w rm s
  | .decRm w rm => Sys2Proof.Machine.execDecRm w rm s
  | .testRm8Imm8 rm imm => Sys2Proof.Machine.execTestRm8Imm8 rm imm s
  | .testRm16Imm16 rm imm => Sys2Proof.Machine.execTestRm16Imm16 rm imm s
  | .notRm w rm => Sys2Proof.Machine.execNotRm w rm s
  | .negRm w rm => Sys2Proof.Machine.execNegRm w rm s
  | .mulRm w rm => Sys2Proof.Machine.execMulRm w rm s
  | .imulRm w rm => Sys2Proof.Machine.execImulRm w rm s
  | .divRm w rm => Sys2Proof.Machine.execDivRm w rm s
  | .idivRm w rm => Sys2Proof.Machine.execIdivRm w rm s
  | .addRmR w d reg rm => Sys2Proof.Machine.execAddRmR w d reg rm s
  | .addAlImm8 imm => Sys2Proof.Machine.execAddAlImm8 imm s
  | .addAxImm16 imm => Sys2Proof.Machine.execAddAxImm16 imm s
  | .addRm8Imm8 op82 rm imm => Sys2Proof.Machine.execAddRm8Imm8 op82 rm imm s
  | .addRm16Imm16 rm imm => Sys2Proof.Machine.execAddRm16Imm16 rm imm s
  | .addRm16Simm8 rm imm => Sys2Proof.Machine.execAddRm16Simm8 rm imm s
  | .orRmR w d reg rm => Sys2Proof.Machine.execOrRmR w d reg rm s
  | .orAlImm8 imm => Sys2Proof.Machine.execOrAlImm8 imm s
  | .orAxImm16 imm => Sys2Proof.Machine.execOrAxImm16 imm s
  | .orRm8Imm8 op82 rm imm => Sys2Proof.Machine.execOrRm8Imm8 op82 rm imm s
  | .orRm16Imm16 rm imm => Sys2Proof.Machine.execOrRm16Imm16 rm imm s
  | .orRm16Simm8 rm imm => Sys2Proof.Machine.execOrRm16Simm8 rm imm s
  | .adcRmR w d reg rm => Sys2Proof.Machine.execAdcRmR w d reg rm s
  | .adcAlImm8 imm => Sys2Proof.Machine.execAdcAlImm8 imm s
  | .adcAxImm16 imm => Sys2Proof.Machine.execAdcAxImm16 imm s
  | .adcRm8Imm8 op82 rm imm => Sys2Proof.Machine.execAdcRm8Imm8 op82 rm imm s
  | .adcRm16Imm16 rm imm => Sys2Proof.Machine.execAdcRm16Imm16 rm imm s
  | .adcRm16Simm8 rm imm => Sys2Proof.Machine.execAdcRm16Simm8 rm imm s
  | .sbbRmR w d reg rm => Sys2Proof.Machine.execSbbRmR w d reg rm s
  | .sbbAlImm8 imm => Sys2Proof.Machine.execSbbAlImm8 imm s
  | .sbbAxImm16 imm => Sys2Proof.Machine.execSbbAxImm16 imm s
  | .sbbRm8Imm8 op82 rm imm => Sys2Proof.Machine.execSbbRm8Imm8 op82 rm imm s
  | .sbbRm16Imm16 rm imm => Sys2Proof.Machine.execSbbRm16Imm16 rm imm s
  | .sbbRm16Simm8 rm imm => Sys2Proof.Machine.execSbbRm16Simm8 rm imm s
  | .andRmR w d reg rm => Sys2Proof.Machine.execAndRmR w d reg rm s
  | .andAlImm8 imm => Sys2Proof.Machine.execAndAlImm8 imm s
  | .andAxImm16 imm => Sys2Proof.Machine.execAndAxImm16 imm s
  | .andRm8Imm8 op82 rm imm => Sys2Proof.Machine.execAndRm8Imm8 op82 rm imm s
  | .andRm16Imm16 rm imm => Sys2Proof.Machine.execAndRm16Imm16 rm imm s
  | .andRm16Simm8 rm imm => Sys2Proof.Machine.execAndRm16Simm8 rm imm s
  | .subRmR w d reg rm => Sys2Proof.Machine.execSubRmR w d reg rm s
  | .subAlImm8 imm => Sys2Proof.Machine.execSubAlImm8 imm s
  | .subAxImm16 imm => Sys2Proof.Machine.execSubAxImm16 imm s
  | .subRm8Imm8 op82 rm imm => Sys2Proof.Machine.execSubRm8Imm8 op82 rm imm s
  | .subRm16Imm16 rm imm => Sys2Proof.Machine.execSubRm16Imm16 rm imm s
  | .subRm16Simm8 rm imm => Sys2Proof.Machine.execSubRm16Simm8 rm imm s
  | .xorRmR w d reg rm => Sys2Proof.Machine.execXorRmR w d reg rm s
  | .xorAlImm8 imm => Sys2Proof.Machine.execXorAlImm8 imm s
  | .xorAxImm16 imm => Sys2Proof.Machine.execXorAxImm16 imm s
  | .xorRm8Imm8 op82 rm imm => Sys2Proof.Machine.execXorRm8Imm8 op82 rm imm s
  | .xorRm16Imm16 rm imm => Sys2Proof.Machine.execXorRm16Imm16 rm imm s
  | .xorRm16Simm8 rm imm => Sys2Proof.Machine.execXorRm16Simm8 rm imm s
  | .cmpRmR w d reg rm => Sys2Proof.Machine.execCmpRmR w d reg rm s
  | .cmpAlImm8 imm => Sys2Proof.Machine.execCmpAlImm8 imm s
  | .cmpAxImm16 imm => Sys2Proof.Machine.execCmpAxImm16 imm s
  | .cmpRm8Imm8 op82 rm imm => Sys2Proof.Machine.execCmpRm8Imm8 op82 rm imm s
  | .cmpRm16Imm16 rm imm => Sys2Proof.Machine.execCmpRm16Imm16 rm imm s
  | .cmpRm16Simm8 rm imm => Sys2Proof.Machine.execCmpRm16Simm8 rm imm s
  | .testRmR w reg rm => Sys2Proof.Machine.execTestRmR w reg rm s
  | .testAlImm8 imm => Sys2Proof.Machine.execTestAlImm8 imm s
  | .testAxImm16 imm => Sys2Proof.Machine.execTestAxImm16 imm s
  | .movs w => Sys2Proof.Machine.execMovs w s
  | .cmps w => Sys2Proof.Machine.execCmps w s
  | .stos w => Sys2Proof.Machine.execStos w s
  | .lods w => Sys2Proof.Machine.execLods w s
  | .scas w => Sys2Proof.Machine.execScas w s
  | .segOverride sr => Sys2Proof.Machine.execSegOverride sr s
  | .rep mode => Sys2Proof.Machine.execRep mode s
  | .lock => Sys2Proof.Machine.execLock s
  | .rolRm w count rm => Sys2Proof.Machine.execRolRm w count rm s
  | .rolRmImm8 w rm imm => Sys2Proof.Machine.execRolRmImm8 w rm imm s
  | .rorRm w count rm => Sys2Proof.Machine.execRorRm w count rm s
  | .rorRmImm8 w rm imm => Sys2Proof.Machine.execRorRmImm8 w rm imm s
  | .rclRm w count rm => Sys2Proof.Machine.execRclRm w count rm s
  | .rclRmImm8 w rm imm => Sys2Proof.Machine.execRclRmImm8 w rm imm s
  | .rcrRm w count rm => Sys2Proof.Machine.execRcrRm w count rm s
  | .rcrRmImm8 w rm imm => Sys2Proof.Machine.execRcrRmImm8 w rm imm s
  | .shlRm w count rm => Sys2Proof.Machine.execShlRm w count rm s
  | .shlRmImm8 w rm imm => Sys2Proof.Machine.execShlRmImm8 w rm imm s
  | .shrRm w count rm => Sys2Proof.Machine.execShrRm w count rm s
  | .shrRmImm8 w rm imm => Sys2Proof.Machine.execShrRmImm8 w rm imm s
  | .sarRm w count rm => Sys2Proof.Machine.execSarRm w count rm s
  | .sarRmImm8 w rm imm => Sys2Proof.Machine.execSarRmImm8 w rm imm s
  | .loopne rel => Sys2Proof.Machine.execLoopne rel s
  | .loope rel => Sys2Proof.Machine.execLoope rel s
  | .loop rel => Sys2Proof.Machine.execLoop rel s
  | .jcxz rel => Sys2Proof.Machine.execJcxz rel s
  | .jmpRel8 rel => Sys2Proof.Machine.execJmpRel8 rel s
  | .jmpRel16 rel => Sys2Proof.Machine.execJmpRel16 rel s
  | .jmpPtr off seg => Sys2Proof.Machine.execJmpPtr off seg s
  | .jmpRm16 rm => Sys2Proof.Machine.execJmpRm16 rm s
  | .jmpM1616 m => Sys2Proof.Machine.execJmpM1616 m s
  | .callRel16 rel => Sys2Proof.Machine.execCallRel16 rel s
  | .callPtr off seg => Sys2Proof.Machine.execCallPtr off seg s
  | .callRm16 rm => Sys2Proof.Machine.execCallRm16 rm s
  | .callM1616 m => Sys2Proof.Machine.execCallM1616 m s
  | .ret => Sys2Proof.Machine.execRet s
  | .retImm16 imm => Sys2Proof.Machine.execRetImm16 imm s
  | .retf => Sys2Proof.Machine.execRetf s
  | .retfImm16 imm => Sys2Proof.Machine.execRetfImm16 imm s
  | .int vector => Sys2Proof.Machine.execInt vector s
  | .int3 => Sys2Proof.Machine.execInt3 s
  | .into => Sys2Proof.Machine.execInto s
  | .iret => Sys2Proof.Machine.execIret s
  | .daa => Sys2Proof.Machine.execDaa s
  | .das => Sys2Proof.Machine.execDas s
  | .aaa => Sys2Proof.Machine.execAaa s
  | .aas => Sys2Proof.Machine.execAas s
  | .aam base => Sys2Proof.Machine.execAam base s
  | .aad base => Sys2Proof.Machine.execAad base s
  | .inAccImm8 w port => Sys2Proof.Machine.execInAccImm8 w port s
  | .inAccDx w => Sys2Proof.Machine.execInAccDx w s
  | .outImm8Acc w port => Sys2Proof.Machine.execOutImm8Acc w port s
  | .outDxAcc w => Sys2Proof.Machine.execOutDxAcc w s
  | .clc => Sys2Proof.Machine.execClc s
  | .stc => Sys2Proof.Machine.execStc s
  | .cli => Sys2Proof.Machine.execCli s
  | .sti => Sys2Proof.Machine.execSti s
  | .cld => Sys2Proof.Machine.execCld s
  | .std => Sys2Proof.Machine.execStd s
  | .cmc => Sys2Proof.Machine.execCmc s
  | .hlt => Sys2Proof.Machine.execHlt s
  | .wait => Sys2Proof.Machine.execWait s
  | .esc x reg rm => Sys2Proof.Machine.execEsc x reg rm s
  | .putchar => Sys2Proof.Machine.execPutchar s
  | .getTime => Sys2Proof.Machine.execGetTime s
  | .diskRead => Sys2Proof.Machine.execDiskRead s
  | .diskWrite => Sys2Proof.Machine.execDiskWrite s
  | .reserved0F sub => Sys2Proof.Machine.execReserved0F sub s
  | .reserved60to6F x => Sys2Proof.Machine.execReserved60to6F x s
  | .reserved8C m => Sys2Proof.Machine.execReserved8C m s
  | .reserved8D reg rm => Sys2Proof.Machine.execReserved8D reg rm s
  | .reserved8E m => Sys2Proof.Machine.execReserved8E m s
  | .reserved8F m => Sys2Proof.Machine.execReserved8F m s
  | .reservedC0C1 w mod rm => Sys2Proof.Machine.execReservedC0C1 w mod rm s
  | .reservedC4 reg rm => Sys2Proof.Machine.execReservedC4 reg rm s
  | .reservedC5 reg rm => Sys2Proof.Machine.execReservedC5 reg rm s
  | .reservedC6 m => Sys2Proof.Machine.execReservedC6 m s
  | .reservedC7 m => Sys2Proof.Machine.execReservedC7 m s
  | .reservedC8C9 x => Sys2Proof.Machine.execReservedC8C9 x s
  | .reservedD0toD3 w count mod rm => Sys2Proof.Machine.execReservedD0toD3 w count mod rm s
  | .reservedD6 => Sys2Proof.Machine.execReservedD6 s
  | .reservedF1 => Sys2Proof.Machine.execReservedF1 s
  | .reservedF6F7 w mod rm => Sys2Proof.Machine.execReservedF6F7 w mod rm s
  | .reservedFE m => Sys2Proof.Machine.execReservedFE m s
  | .reservedFF3 rm => Sys2Proof.Machine.execReservedFF3 rm s
  | .reservedFF5 rm => Sys2Proof.Machine.execReservedFF5 rm s
  | .reservedFF7 mod rm => Sys2Proof.Machine.execReservedFF7 mod rm s

end Sys2Proof.Machine
end

