-- ==== Sys2Proof/Machine/Step.lean ====
section
/-! DEFINITION. One step of the machine: the cycle of 60_exceptions R419. -/

namespace Sys2Proof.Machine

/-- One cycle (60_exceptions R419). A machine at `CS = 0, IP = 0` halts without a fetch (R418); one that does not run makes no
further cycle (log 9, log 10). -/
def step (s : State) : Host.Outcome State Fault Refusal :=
  match s.runState with
  | .halted => .fault .halted
  | .runaway => .fault .runaway
  | .running =>
    if s.reg .cs = 0 ∧ s.IP = 0 then .next { s with runState := .halted }
    else
      match decode s.fetchBytes with
      | .ok (i, _) => andThen (exec i s.startCycle) State.endOfCycle
      | .error _ => .refused .truncatedFetch

/-- The state with an instruction of the opcode table stored where the next fetch reads. It stands for the load of a program from
outside the machine (10_state R38, log 18). -/
def State.withFetchWord (s : State) (nbits w : Nat) : State := s.putBytes s.fetchAddr (tableWordBytes nbits w)

end Sys2Proof.Machine
end

