-- ==== Sys2Proof/Machine/Launch.lean ====
section
/-! DEFINITION. The launch state with a boot image (10_state R38, 70_reset_and_hazards R440): what the boot glue establishes before
the first cycle. -/

namespace Sys2Proof.Machine

/-- `linear(0xF000, 0x0100)`, the first byte of the boot image and the entry point (10_state R38). -/
def bootAddr : Addr := lin 0xF000 0x0100

/-- The bytes of the boot image window (00_scope R5): a longer image is cut. -/
def bootImageMax : Nat := 0xFF00

/-- What the boot glue sets besides the image (table of 10_state R38); what the spec leaves unspecified stays as it stands in `s`. -/
def State.bootContext (s : State) : State :=
  { s with
    regs := ((s.regs.set .cs 0xF000).set .ax 0).set .dx (withByte false 0x80 (s.reg .dx))
    flags := { s.flags with TF := false }
    IP := 0x0100
    segOvrCnt := 0
    repCnt := 0
    trapShadow := false
    tickPending := false
    tickCounter := 0
    runState := .running }

/-- The boot glue: `s` gives what the spec leaves unspecified at launch, and the image is copied to linear 0xF0100, cut at 0xFF00 bytes
(10_state R38, 70_reset_and_hazards R440). -/
def State.bootLoad (s : State) (image : List Byte) : State := s.bootContext.putBytes bootAddr (image.take bootImageMax)

/-- The launch state with a boot image; what the spec leaves unspecified is as in `State.reset` (log 3 to log 6, log 18). -/
def State.launch (image : List Byte) : State := State.reset.bootLoad image

end Sys2Proof.Machine
end

