-- ==== Sys2Proof/Safety.lean ====
section
/-! DEFINITION. The terms in which statements about the machine are written: the invariant of a state, what an instruction leaves
unchanged, what a store leaves behind, and the side conditions under which an instruction runs to its end. -/

namespace Sys2Proof

namespace Machine

/-! ### The invariant (10_state R31, R33, R36; 20_memory R60) -/

/-- What holds in every state that a run reaches: the byte arrays are canonical, no cell of `mem` hides behind a register or a
flag and none of `ports` behind a special port, of which there are as many as the list names, the counters are in range (10_state R31, R36), and no next state is `Runaway` (log 9). -/
structure State.Inv (s : State) : Prop where
  memWf : s.mem.wf memSize = true
  portsWf : s.ports.wf portCount = true
  noShadow : ∀ c ∈ s.mem, cellAt (BitVec.ofNat 20 c.1) = .plain
  portsPlain : ∀ c ∈ s.ports, isSpecialPort (BitVec.ofNat 16 c.1) = false
  specialPorts_length : s.specialPorts.length = Config.specialPorts.length
  segOvrCnt_le : s.segOvrCnt ≤ 2
  repCnt_le : s.repCnt ≤ 2
  tickPeriod_pos : 0 < s.params.tickPeriod
  tickCounter_lt : s.tickCounter < s.params.tickPeriod
  notRunaway : s.runState ≠ .runaway

/-! ### Side conditions -/

/-- An instruction of `len` bytes ends inside the segment: `next` is at most 0xFFFF (10_state R29). -/
def State.Fits (s : State) (len : Nat) : Prop := s.IP.toNat + len ≤ 0xFFFF

/-- A store to a location keeps the invariants of the register page (10_state R36). -/
def canStoreLoc (w : Width) (l : Loc) (v : BitVec w.bits) : Bool :=
  match l with
  | .reg _ => true
  | .mem a => canStore w a v

/-- The state after a store to a location that keeps these invariants. -/
def State.putLoc (s : State) (w : Width) (l : Loc) (v : BitVec w.bits) : State :=
  match l with
  | .reg i => s.writeReg w i v
  | .mem a => s.putMem w a v

/-- The bytes of an operand at `a` are ordinary memory: no register, flag, `ZERO` or `SCRATCH` byte among them. -/
def Plain (w : Width) (a : Addr) : Prop :=
  match w with
  | .byte => cellAt a = .plain
  | .word => cellAt a = .plain ∧ cellAt (a + 1#20) = .plain

/-! ### Locations as bytes of memory (10_state R25: a register access is an access to the page) -/

/-- `RegAddr(w, i)` (10_state R25). -/
def regAddr (w : Width) (i : RegNum) : Addr :=
  match w with
  | .byte => Config.regsBase + BitVec.ofNat 20 (2 * (i.val % 4) + i.val / 4)
  | .word => Config.regsBase + BitVec.ofNat 20 (2 * i.val)

/-- The slot of a register in the page (10_state R21). -/
def Reg.slot (r : Reg) : Nat :=
  match r with
  | .ax => 0
  | .cx => 1
  | .dx => 2
  | .bx => 3
  | .sp => 4
  | .bp => 5
  | .si => 6
  | .di => 7
  | .es => 8
  | .cs => 9
  | .ss => 10
  | .ds => 11

/-- The address of a register's low byte in the page (10_state R25). -/
def Reg.addr (r : Reg) : Addr := Config.regsBase + BitVec.ofNat 20 (2 * r.slot)

/-- The address of a flag's cell (10_state R25). -/
def flagAddr (x : Flag) : Addr :=
  match x with
  | .cf => Config.regsBase + 40#20
  | .pf => Config.regsBase + 41#20
  | .af => Config.regsBase + 42#20
  | .zf => Config.regsBase + 43#20
  | .sf => Config.regsBase + 44#20
  | .tf => Config.regsBase + 45#20
  | .intf => Config.regsBase + 46#20
  | .df => Config.regsBase + 47#20
  | .of => Config.regsBase + 48#20

/-- The address of a location (00_scope R9: a register being memory-mapped). -/
def Loc.addr (w : Width) (l : Loc) : Addr :=
  match l with
  | .reg i => regAddr w i
  | .mem a => a

/-- The bytes of an operand at an address (20_memory R63). -/
def bytesAt (w : Width) (a : Addr) : List Addr :=
  match w with
  | .byte => [a]
  | .word => [a, a + 1#20]

/-- The bytes of a location. -/
def Loc.bytes (w : Width) (l : Loc) : List Addr := bytesAt w (l.addr w)

/-! ### What changes and what does not -/

/-- Everything of the state that is neither a register, a flag, a byte of memory nor `IP` is the same, draws included. -/
def SameContext (s t : State) : Prop :=
  t.ports = s.ports ∧ t.specialPorts = s.specialPorts ∧ t.segOvrCnt = s.segOvrCnt ∧ t.segOvrReg = s.segOvrReg ∧
    t.repCnt = s.repCnt ∧ t.repMode = s.repMode ∧
    t.trapShadow = s.trapShadow ∧ t.tickPending = s.tickPending ∧ t.tickCounter = s.tickCounter ∧
    t.runState = s.runState ∧ t.portDevice = s.portDevice ∧ t.params = s.params ∧ t.draws = s.draws ∧
    t.hostCalls = s.hostCalls

/-- From `s` to `t` nothing changes but `IP`, the bytes `stored`, and the flags in `fl`: every other byte of the address space
reads as before (the register page is part of it), every register none of whose bytes is stored, every other flag whose cell is
not stored, and everything else that the state holds. -/
def Frame (s t : State) (stored : List Addr) (fl : List Flag) : Prop :=
  (∀ a, a ∉ stored → a ∉ fl.map flagAddr → t.readByte a = s.readByte a) ∧
    (∀ r : Reg, r.addr ∉ stored → r.addr + 1#20 ∉ stored → t.reg r = s.reg r) ∧
    (∀ x : Flag, x ∉ fl → flagAddr x ∉ stored → t.flags.get x = s.flags.get x) ∧
    SameContext s t

/-- `Frame` but for the counter of draws, which instructions with several draws of one kind advance (log 25). -/
def FrameButDraws (s t : State) (stored : List Addr) (fl : List Flag) : Prop :=
  Frame s { t with draws := s.draws } stored fl

/-- The byte at `a` reads as `v`, unless it is a byte of `SCRATCH`, which reads as a free value (10_state R36), or the cell of a
flag in `fl`, which is set after the store. -/
def HoldsByte (t : State) (a : Addr) (v : Byte) (fl : List Flag) : Prop :=
  (∀ h, cellAt a ≠ .scratch h) → a ∉ fl.map flagAddr → t.readByte a = v

/-- After a store of `v` the bytes at `a` hold it, low byte first (20_memory R62). -/
def Holds (t : State) (w : Width) (a : Addr) (v : BitVec w.bits) (fl : List Flag := []) : Prop :=
  match w with
  | .byte => HoldsByte t a v fl
  | .word => HoldsByte t a (byteOf false v) fl ∧ HoldsByte t (a + 1#20) (byteOf true v) fl

/-- The flags in `fl` are those of `f`, but for a flag whose cell is stored to after they are set. -/
def FlagsAre (t : State) (f : Flags) (fl : List Flag) (stored : List Addr := []) : Prop :=
  ∀ x ∈ fl, flagAddr x ∉ stored → t.flags.get x = f.get x

/-- The two bytes of a register in the page. -/
def Reg.bytes (r : Reg) : List Addr := [r.addr, r.addr + 1#20]

/-- A register holds `v`, unless one of its bytes is stored to after it is set. -/
def RegIs (t : State) (r : Reg) (v : Word) (stored : List Addr := []) : Prop :=
  (∀ a ∈ r.bytes, a ∉ stored) → t.reg r = v

/-- The six flags that arithmetic sets (43_alu R221). -/
def statusFlags : List Flag := [.cf, .pf, .af, .zf, .sf, .of]

/-- The five flags that a logic operation sets (43_alu R222). -/
def logicFlags : List Flag := [.cf, .pf, .zf, .sf, .of]

/-- A register operand is set to `v` and nothing else but `IP` changes. -/
def Sets (s t : State) (w : Width) (i : RegNum) (v : BitVec w.bits) : Prop :=
  t.readReg w i = v ∧ Frame s t (bytesAt w (regAddr w i)) []

/-- A 16-bit register is set to `v` and nothing else but `IP` changes. -/
def SetsReg (s t : State) (r : Reg) (v : Word) : Prop := t.reg r = v ∧ Frame s t r.bytes []

/-- A location is set to `v`, the flags in `fl` to those of `f` (`f` before the store when `storeLast`, so that a stored byte stands
in the cell of a flag; else after it), and nothing else but `IP` changes. -/
def StoresAndFlags (s t : State) (w : Width) (l : Loc) (v : BitVec w.bits) (f : Flags) (fl : List Flag) (storeLast : Bool) : Prop :=
  Holds t w (l.addr w) v (if storeLast then [] else fl) ∧ FlagsAre t f fl (if storeLast then l.bytes w else []) ∧
    Frame s t (l.bytes w) fl

/-! ### The stack and taking an exception -/

/-- The linear address of the word `n` bytes above `SS:SP` (20_memory R77); `below` for those under it. -/
def State.stackAt (s : State) (n : Word) : Addr := lin (s.reg .ss) (s.reg .sp + n)

/-- The linear address of the word `n` bytes below `SS:SP`. -/
def State.stackBelow (s : State) (n : Word) : Addr := lin (s.reg .ss) (s.reg .sp - n)

/-- One push of `v` (20_memory R77): `SP` is lowered by 2, then `v` is stored at `SS:SP`; nothing else but `IP` changes. -/
def Pushes (s t : State) (v : Word) : Prop :=
  Holds t .word (s.stackBelow 2) v ∧ RegIs t .sp (s.reg .sp - 2#16) (bytesAt .word (s.stackBelow 2)) ∧
    Frame s t (bytesAt .word (s.stackBelow 2) ++ Reg.sp.bytes) []

/-- The bytes of three pushed words. -/
def State.threePushed (s : State) : List Addr :=
  bytesAt .word (s.stackBelow 2) ++ bytesAt .word (s.stackBelow 4) ++ bytesAt .word (s.stackBelow 6)

/-- The three words below `SS:SP` are ordinary memory. -/
def PlainStack (s : State) : Prop :=
  Plain .word (s.stackBelow 2) ∧ Plain .word (s.stackBelow 4) ∧ Plain .word (s.stackBelow 6)

/-- What `deliver(v)` leaves (60_exceptions R401), `s` being the state before and `ret` the offset pushed: the packed flags, `CS` and
`ret` on the stack, `SP` lower by 6, `CS:IP` from the vector-table entry at linear `4*v` as it stands after the pushes, `TF` and `IF`
clear, and nothing else changed. -/
def Delivered (s t : State) (v : Byte) (ret : Word) : Prop :=
  t.readMem .word (s.stackBelow 2) = s.flags.pack ∧ t.readMem .word (s.stackBelow 4) = s.reg .cs ∧
    t.readMem .word (s.stackBelow 6) = ret ∧ t.reg .sp = s.reg .sp - 6#16 ∧
    t.IP = t.readMem .word (BitVec.ofNat 20 (4 * v.toNat)) ∧
    t.reg .cs = t.readMem .word (BitVec.ofNat 20 (4 * v.toNat + 2)) ∧
    t.flags.TF = false ∧ t.flags.IF = false ∧ Frame s t (s.threePushed ++ Reg.cs.bytes ++ Reg.sp.bytes) [.tf, .intf]

/-! ### How an instruction ends -/

/-- `exec i` at `s` ends as an instruction of `len` bytes that falls through to the next: where `next` is at most 0xFFFF it answers
a next state `t` with `IP = next`, of which `post` says the rest; past 0xFFFF it ends in Runaway (10_state R29, 00_scope R10). -/
def RunsTo (i : Instr) (s : State) (len : Nat) (post : State → Prop) : Prop :=
  (s.Fits len → ∃ t, exec i s = .next t ∧ t.IP = s.IP + BitVec.ofNat 16 len ∧ post t) ∧
    (¬s.Fits len → exec i s = .fault .runaway)

/-- `RunsTo` for an instruction that stores, `ok` saying whether the store keeps the invariants of the register page: one that
would break them is refused (10_state R36). -/
def StoresTo (i : Instr) (s : State) (ok : Bool) (len : Nat) (post : State → Prop) : Prop :=
  (ok = true → RunsTo i s len post) ∧ (ok = false → exec i s = .refused .breaksPageInvariant)

/-- `exec i` at `s` stores `v` to a location and changes nothing else but `IP`. -/
def StoresOnly (i : Instr) (s : State) (w : Width) (l : Loc) (v : BitVec w.bits) (len : Nat) : Prop :=
  StoresTo i s (canStoreLoc w l v) len fun t => Holds t w (l.addr w) v ∧ Frame s t (l.bytes w) []

/-- `exec i` at `s` sets the flags in `fl` to those of `f` and changes nothing else but `IP`. -/
def FlagsOnly (i : Instr) (s : State) (f : Flags) (fl : List Flag) (len : Nat) : Prop :=
  RunsTo i s len fun t => FlagsAre t f fl ∧ Frame s t [] fl

/-- `exec i` at `s` is `SetIP(target)` and nothing else changes but what `s'` says: inside 0..0xFFFF a next state, outside it
Runaway (10_state R29). -/
def JumpsTo (i : Instr) (s s' : State) (target : Int) : Prop :=
  (0 ≤ target ∧ target ≤ 0xFFFF → exec i s = .next { s' with IP := BitVec.ofInt 16 target }) ∧
    (¬(0 ≤ target ∧ target ≤ 0xFFFF) → exec i s = .fault .runaway)

/-- The flags a two-operand operation sets (43_alu R221, R222). -/
def aluFlagList (op : AluOp) : List Flag :=
  match op with
  | .add => statusFlags
  | .or => logicFlags
  | .adc => statusFlags
  | .sbb => statusFlags
  | .and => logicFlags
  | .sub => statusFlags
  | .xor => logicFlags
  | .cmp => statusFlags

/-- `exec i` at `s` performs operation `op` on the location `dst` and the value `e` (43_alu R220): the flags are set, then, but for
`CMP`, the result is stored. -/
def AluRuns (i : Instr) (s : State) (op : AluOp) (w : Width) (dst : Loc) (e : BitVec w.bits) (len : Nat) : Prop :=
  (op ≠ .cmp →
    StoresTo i s (canStoreLoc w dst (aluValue op (s.readLoc w dst) e s.flags.CF)) len fun t =>
      StoresAndFlags s t w dst (aluValue op (s.readLoc w dst) e s.flags.CF) (aluFlags op (s.readLoc w dst) e s.flags)
        (aluFlagList op) true) ∧
    (op = .cmp → FlagsOnly i s (aluFlags .cmp (s.readLoc w dst) e s.flags) statusFlags len)

/-- The flags a shift or rotate with count `c0`, not 0, sets to a defined value: `OF` only for a count of 1 (45_shift_rotate R289, U3). -/
def shiftDefined (op : ShiftOp) (c0 : Nat) : List Flag :=
  Flag.cf :: ((if c0 = 1 then [.of] else []) ++ if shiftSetsSZP op then [.sf, .zf, .pf] else [])

/-- The flags a shift or rotate may change. -/
def shiftChanged (op : ShiftOp) : List Flag := [.cf, .of] ++ if shiftSetsSZP op then [.sf, .zf, .pf] else []

/-- `exec i` at `s` performs the shift or rotate `op` by `c0` on a location (45_shift_rotate R280, R289): with a count of 0 nothing but
`IP` changes; else the result is stored, then the flags are set. -/
def ShiftRuns (i : Instr) (s : State) (op : ShiftOp) (w : Width) (l : Loc) (c0 len : Nat) : Prop :=
  (c0 = 0 → JumpsTo i s s (s.IP.toNat + len)) ∧
    (c0 ≠ 0 →
      StoresTo i s (canStoreLoc w l (shiftValue op (s.readLoc w l) s.flags.CF c0)) len fun t =>
        Holds t w (l.addr w) (shiftValue op (s.readLoc w l) s.flags.CF c0) (shiftChanged op) ∧
          FlagsAre t (shiftFlags op (s.readLoc w l) s.flags.CF c0 s.draws s.flags) (shiftDefined op c0) ∧
          Frame s t (l.bytes w) (shiftChanged op))

/-! ### String elements (44_string_prefix R250, R251) -/

/-- The step of an index: the operand width, signed by `DF`. -/
def State.delta (s : State) (w : Width) : Word := if s.flags.DF then -BitVec.ofNat 16 w.bytes else BitVec.ofNat 16 w.bytes

/-- The linear address of source element `k`. -/
def State.srcAt (s : State) (w : Width) (k : Nat) : Addr := lin (s.segment .ds) (s.reg .si + BitVec.ofNat 16 k * s.delta w)

/-- The linear address of destination element `k`. -/
def State.dstAt (s : State) (w : Width) (k : Nat) : Addr := lin (s.reg .es) (s.reg .di + BitVec.ofNat 16 k * s.delta w)

/-- The bytes of the first `n` destination elements. -/
def State.dstBytes (s : State) (w : Width) (n : Nat) : List Addr := (List.range n).flatMap fun k => bytesAt w (s.dstAt w k)

/-- One iteration of `MOVS` (R254): the element is stored, then both indices move; an iteration has draws of its own (log 25). -/
def State.movsOnce (w : Width) (s : State) : Result :=
  andThen (s.writeMem w (s.dstAt w 0) (s.readMem w (s.srcAt w 0))) fun t =>
    .next ((t.setReg .si (t.reg .si + t.delta w)).setReg .di (t.reg .di + t.delta w)).nextDraw

/-- One iteration of `STOS` (R255). -/
def State.stosOnce (w : Width) (s : State) : Result :=
  andThen (s.writeMem w (s.dstAt w 0) (s.readReg w 0)) fun t => .next (t.setReg .di (t.reg .di + t.delta w)).nextDraw

/-- One iteration of `LODS` (R256). -/
def State.lodsOnce (w : Width) (s : State) : Result :=
  let t := s.writeReg w 0 (s.readMem w (s.srcAt w 0))
  .next (t.setReg .si (t.reg .si + t.delta w)).nextDraw

/-- The first `m` iterations from `s` go through `u 0`, `u 1`, …, `u m`. -/
def Iterates (one : State → Result) (s : State) (u : Nat → State) (m : Nat) : Prop :=
  u 0 = s ∧ ∀ k < m, one (u k) = .next (u (k + 1))

/-- A repeat prefix is active (44_string_prefix R260) and `CX` is `n`. -/
def State.Repeats (s : State) (n : Nat) : Prop := s.repCnt ≠ 0 ∧ (s.reg .cx).toNat = n

/-! ### Ports and hooks -/

/-- What a port access reads: one byte port, or two, the low byte at `p` (20_memory R75). -/
def State.portsAt (s : State) (w : Width) (p : Word) : BitVec w.bits :=
  match w with
  | .byte => s.portByte p
  | .word => s.portByte (p + 1#16) ++ s.portByte p

/-- The ports of an access. -/
def portsOf (w : Width) (p : Word) : List Word :=
  match w with
  | .byte => [p]
  | .word => [p, p + 1#16]

/-- The state with the ports and the device of `s`: to say that nothing else changed. -/
def State.withPortsOf (t s : State) : State := 
  { t with ports := s.ports, specialPorts := s.specialPorts, portDevice := s.portDevice }

/-- The `n` bytes at `a`. -/
def bytesFrom (a : Addr) (n : Nat) : List Addr := (List.range n).map fun k => a + BitVec.ofNat 20 k

/-- A conditional transfer of two bytes (40_cond_jump R130, 46_control_transfer R300): `SetIP(next + rel)` if `cond` holds, else
`SetIP(next)`, on exact integers. -/
def JumpsOn (i : Instr) (s s' : State) (cond : Prop) (rel : Byte) : Prop :=
  (cond → JumpsTo i s s' (s.IP.toNat + 2 + rel.toInt)) ∧ (¬cond → JumpsTo i s s' (s.IP.toNat + 2))

/-- `exec i` at `s`, a compare of `d` with `e`, completes, and after it each conditional jump that tests the order of two operands
decides it: of numbers without and with a sign (43_alu R233). -/
def DecidesOrder (i : Instr) (s : State) (w : Width) (d e : BitVec w.bits) (len : Nat)
    (rel : Byte) : Prop :=
  s.Fits len → ∃ t, exec i s = .next t ∧
    JumpsOn (.je rel) t t (d = e) rel ∧ JumpsOn (.jne rel) t t (d ≠ e) rel ∧
    JumpsOn (.jb rel) t t (d.toNat < e.toNat) rel ∧ JumpsOn (.jae rel) t t (e.toNat ≤ d.toNat) rel ∧
    JumpsOn (.jbe rel) t t (d.toNat ≤ e.toNat) rel ∧ JumpsOn (.ja rel) t t (e.toNat < d.toNat) rel ∧
    JumpsOn (.jl rel) t t (d.toInt < e.toInt) rel ∧ JumpsOn (.jge rel) t t (e.toInt ≤ d.toInt) rel ∧
    JumpsOn (.jle rel) t t (d.toInt ≤ e.toInt) rel ∧ JumpsOn (.jg rel) t t (e.toInt < d.toInt) rel

/-! ### The boot image -/

/-- The addresses of a boot image: from linear 0xF0100 on, as many as the image has, at most 0xFF00 (10_state R38). -/
def bootWindow (image : List Byte) : List Addr := bytesFrom 0xF0100 (min image.length 0xFF00)

end Machine

/-! ### Kinds of instruction -/

/-- The prefix bytes that set a counter (44_string_prefix R261, R262). -/
def Instr.SetsCounter (i : Instr) : Prop := (∃ sr, i = .segOverride sr) ∨ ∃ mode, i = .rep mode

/-- The instructions that reach `Ports` (10_state R30). -/
def Instr.ReachesPorts (i : Instr) : Prop :=
  (∃ w port, i = .inAccImm8 w port) ∨ (∃ w, i = .inAccDx w) ∨ (∃ w port, i = .outImm8Acc w port) ∨ ∃ w, i = .outDxAcc w

/-- The instructions that call the host (48_io_flags_misc R364). -/
def Instr.CallsHost (i : Instr) : Prop := i = .putchar ∨ i = .getTime ∨ i = .diskRead ∨ i = .diskWrite

namespace Machine

/-- Whether an encoding is reserved, from its first two bytes (30_encoding R104). -/
def reservedBytes (b0 b1 : Byte) : Bool :=
  let op := b0.toNat
  let mod := b1.toNat / 64
  let reg := b1.toNat / 8 % 8
  decide (0x60 ≤ op ∧ op ≤ 0x6F) || decide (op = 0xC8 ∨ op = 0xC9 ∨ op = 0xD6 ∨ op = 0xF1) ||
    decide ((op = 0xF6 ∨ op = 0xF7) ∧ reg = 1) ||
    decide ((op = 0xC0 ∨ op = 0xC1 ∨ op = 0xD0 ∨ op = 0xD1 ∨ op = 0xD2 ∨ op = 0xD3) ∧ reg = 6) ||
    decide (op = 0xFE ∧ 2 ≤ reg) || decide (op = 0xFF ∧ reg = 7) ||
    decide ((op = 0x8F ∨ op = 0xC6 ∨ op = 0xC7) ∧ reg ≠ 0) || decide ((op = 0x8C ∨ op = 0x8E) ∧ 4 ≤ reg) ||
    decide ((op = 0x8D ∨ op = 0xC4 ∨ op = 0xC5) ∧ mod = 3) || decide (op = 0xFF ∧ (reg = 3 ∨ reg = 5) ∧ mod = 3) ||
    decide (op = 0x0F ∧ 4 ≤ b1.toNat)

end Machine

end Sys2Proof
end

