-- ==== Sys2Proof/Certificates/Slice0/Obligations.lean ====
section
/-! DEFINITION. The statements for the provers. Each docstring names the rules it formalises. Where a statement speaks of memory
after a store it assumes that memory is in its canonical form, which `Obligations.StepKeepsInvariant` says every step keeps. -/

open Sys2Proof Sys2Proof.Machine

/-! ### Encodings -/

/-- Decoding the bytes of a well-formed instruction gives it back, with every operand, whatever follows it (30_encoding R90 to R99,
R102, R103). -/
def Obligations.DecodeOfEncode : Prop :=
  ∀ (i : Instr) (rest : List Byte), i.wf = true → decode (encode i ++ rest) = .ok (i, rest)

/-- What the decoder answers is a well-formed instruction whose bytes are those it read, so that no two readings share bytes; and six
bytes always decode, to an instruction of one to six bytes (30_encoding R90, R98, R102, R103). -/
def Obligations.EncodeOfDecode : Prop :=
  (∀ (bs : List Byte) (i : Instr) (rest : List Byte), decode bs = .ok (i, rest) → i.wf = true ∧ encode i ++ rest = bs) ∧
    ∀ bs : List Byte, 6 ≤ bs.length →
      ∃ i rest, decode bs = .ok (i, rest) ∧ 1 ≤ i.length ∧ i.length ≤ 6 ∧ bs.length = i.length + rest.length

/-- Words of several families, written out from the encodings of their rules (41_data_movement R151 to R153, R173, 43_alu R227,
44_string_prefix R254, 45_shift_rotate R281, 46_control_transfer R307, 47_bcd R345, 48_io_flags_misc R352, R369). -/
def Obligations.DecodedWords : Prop :=
  decode [0x89, 0xD8] = .ok (.movRmR .word 3 (.reg 0), []) ∧
    decode [0x8B, 0x46, 0x04] = .ok (.movRRm .word 0 (.mem (.disp8 .bp 0x04)), []) ∧
    decode [0xC7, 0x06, 0x00, 0x01, 0x34, 0x12] = .ok (.movRm16Imm16 (.mem (.direct 0x0100)) 0x1234, []) ∧
    decode [0xC4, 0x1E, 0x00, 0x02] = .ok (.les 3 (.direct 0x0200), []) ∧
    decode [0x83, 0xE3, 0xF0] = .ok (.andRm16Simm8 (.reg 3) 0xF0, []) ∧
    decode [0xA4] = .ok (.movs .byte, []) ∧
    decode [0xC1, 0xC0, 0x04] = .ok (.rolRmImm8 .word (.reg 0) 0x04, []) ∧
    decode [0xEA, 0x00, 0x01, 0x00, 0xF0] = .ok (.jmpPtr 0x0100 0xF000, []) ∧
    decode [0xD4, 0x0A] = .ok (.aam 0x0A, []) ∧
    decode [0xE6, 0x80] = .ok (.outImm8Acc .byte 0x80, []) ∧
    decode [0x0F, 0x04] = .ok (.reserved0F 0x04, [])

/-! ### Reset and the cycle -/

/-- The launch state: the values that the spec gives (before a boot image is placed, `State.reset`); and for every image, over every
state that gives what the spec leaves unspecified: the image at linear 0xF0100, cut at 0xFF00 bytes, nothing else changed, and the
first cycle running what stands at its start (00_scope R5, 10_state R38, 70_reset_and_hazards R440). That `ZERO` and the constant cell lie
at linear 0xF0018, 0xF0019 and 0xF0031 is the model's value of `REGS_BASE` (log 2); that a program comes to run by `State.launch`, over
`State.reset` for what is unspecified, is the model's reading (log 18). -/
def Obligations.ResetState : Prop :=
  State.reset.reg .cs = 0xF000 ∧ State.reset.IP = 0x0100 ∧ State.reset.reg8 2 = 0x80 ∧ State.reset.reg .ax = 0 ∧
    State.reset.flags.TF = false ∧ State.reset.trapShadow = false ∧ State.reset.segOvrCnt = 0 ∧
    State.reset.repCnt = 0 ∧ State.reset.tickPending = false ∧ State.reset.tickCounter = 0 ∧
    State.reset.runState = .running ∧ State.reset.readByte 0xF0018 = 0 ∧ State.reset.readByte 0xF0019 = 0 ∧
    State.reset.readByte 0xF0031 = 0 ∧ State.launch [] = State.reset ∧
    (∀ (s t : State) (image : List Byte), s.mem.wf memSize = true → t = s.bootLoad image →
      t.reg .cs = 0xF000 ∧ t.IP = 0x0100 ∧ t.reg8 2 = 0x80 ∧ t.reg .ax = 0 ∧ t.flags.TF = false ∧
        (∀ k b, k < 0xFF00 → image[k]? = some b → t.readByte (0xF0100 + BitVec.ofNat 20 k) = b) ∧
        Frame
          { s with
            segOvrCnt := 0, repCnt := 0, trapShadow := false, tickPending := false, tickCounter := 0, runState := .running }
          t (bootWindow image ++ Reg.cs.bytes ++ Reg.ax.bytes ++ [regAddr .byte 2]) [.tf] ∧
        t.mem.wf memSize = true) ∧
    ∀ (i : Instr) (rest : List Byte), i.wf = true →
      step (State.launch (encode i ++ rest)) = andThen (exec i (State.launch (encode i ++ rest)).startCycle) State.endOfCycle

/-- The invariant holds at reset (10_state R31, R36). That `TICK_PERIOD` is positive there is the model's value (log 13). -/
def Obligations.ResetInvariant : Prop := State.reset.Inv

/-- Every step keeps the invariant: canonical arrays, nothing hidden behind the register page, prefix counters in 0..2, the tick
counter below its period (10_state R31, R36, 60_exceptions R402, R419). -/
def Obligations.StepKeepsInvariant : Prop :=
  ∀ s t : State, s.Inv → step s = .next t → t.Inv

/-- When the bytes from `lin(CS, IP)` on are those of a well-formed instruction, a step of a running machine is that instruction after
the start of the cycle, then the end of the cycle (60_exceptions R419, 20_memory R79). -/
def Obligations.StepRunsDecoded : Prop :=
  ∀ (s : State) (i : Instr), i.wf = true → s.runState = .running → ¬(s.reg .cs = 0 ∧ s.IP = 0) →
    (∀ k b, (encode i)[k]? = some b → s.readByte (lin (s.reg .cs) s.IP + BitVec.ofNat 20 k) = b) →
      step s = andThen (exec i s.startCycle) State.endOfCycle

/-- The halt: tested at the start of a cycle on `CS` and `IP` themselves, nothing is fetched, and nothing but `RunState` changes
(60_exceptions R418, 10_state R33). That no other cycle that answers a next state leaves `Running` rests on log 9: a cycle that ends in
`Runaway` answers a fault without a state. -/
def Obligations.HaltAtZero : Prop :=
  ∀ s : State, s.runState = .running →
    (s.reg .cs = 0 ∧ s.IP = 0 → step s = .next { s with runState := .halted }) ∧
      (¬(s.reg .cs = 0 ∧ s.IP = 0) → ∀ t, step s = .next t → t.runState = .running)

/-- The end of a cycle (60_exceptions R402): the tick counter and request; then, entered with `TrapShadow = 1`, vector 1, after which
no tick is delivered; else vector 0x0A if a tick is pending, no prefix is active, `IF = 1` and `TF = 0`; `TrapShadow` becomes `TF`.
The counter of draws is the model's (log 25). -/
def Obligations.EndOfCycle : Prop :=
  ∀ s s1 : State,
    s1 = { s with
      tickCounter := (s.tickCounter + 1) % s.params.tickPeriod
      tickPending := s.tickPending || (s.tickCounter + 1) % s.params.tickPeriod == 0 } →
    (s.trapShadow = true →
      s.endOfCycle = andThen (s1.deliver 1) fun u => .next { u with trapShadow := false, draws := u.draws + 1 }) ∧
    (s.trapShadow = false →
      s1.tickPending = true ∧ s.segOvrCnt = 0 ∧ s.repCnt = 0 ∧ s.flags.IF = true ∧ s.flags.TF = false →
      s.endOfCycle = andThen (s1.deliver 0x0A) fun u => .next { u with tickPending := false, draws := u.draws + 1 }) ∧
    (s.trapShadow = false →
      ¬(s1.tickPending = true ∧ s.segOvrCnt = 0 ∧ s.repCnt = 0 ∧ s.flags.IF = true ∧ s.flags.TF = false) →
      s.endOfCycle = .next { s1 with trapShadow := s.flags.TF, draws := s.draws + 1 })

/-- The books of every cycle, whatever its instruction: it counts as one toward the tick, it leaves `TrapShadow = TF`, and a request
stays pending unless vector 0x0A was entered, which leaves `IF = TF = 0` (60_exceptions R402, R405, R412, 10_state R31). -/
def Obligations.EveryCycleCounts : Prop :=
  ∀ s t : State, s.runState = .running → ¬(s.reg .cs = 0 ∧ s.IP = 0) → step s = .next t →
    t.tickCounter = (s.tickCounter + 1) % s.params.tickPeriod ∧ t.params = s.params ∧ t.trapShadow = t.flags.TF ∧
      (s.tickPending = true ∨ (s.tickCounter + 1) % s.params.tickPeriod = 0 →
        t.tickPending = true ∨
          (t.flags.IF = false ∧ t.flags.TF = false ∧ t.IP = t.readMem .word 0x28 ∧ t.reg .cs = t.readMem .word 0x2A))

/-- What no other instruction touches: the prefix context but for the prefix bytes, `Ports` but for `IN` and `OUT`, the host but for
the `0F` hooks; and no instruction that answers a next state touches the trap and tick context, the run state or the parameters
(10_state R30, R31, R33, 48_io_flags_misc R364, 60_exceptions R405, R412). For the run state this rests on log 9: `SetIP` does enter
`Runaway` (10_state R29), which answers a fault without a state. -/
def Obligations.OnlyTheseReach : Prop :=
  ∀ (i : Instr) (s t : State), exec i s = .next t →
    (¬i.SetsCounter →
      t.segOvrCnt = s.segOvrCnt ∧ t.segOvrReg = s.segOvrReg ∧ t.repCnt = s.repCnt ∧ t.repMode = s.repMode) ∧
    (¬i.ReachesPorts → t.ports = s.ports ∧ t.specialPorts = s.specialPorts ∧ t.portDevice = s.portDevice) ∧
    (¬i.CallsHost → t.hostCalls = s.hostCalls) ∧
    t.trapShadow = s.trapShadow ∧ t.tickPending = s.tickPending ∧ t.tickCounter = s.tickCounter ∧
      t.runState = s.runState ∧ t.params = s.params

/-- The tick and the prefixes: from counters in 0..2, a cycle leaves one of them at 2 exactly if it is that of a prefix byte; it ends with
both at 0 exactly if it is not, and neither was 2 before; and while they are not both 0 a request stays pending, made before
this cycle or at its end
(70_reset_and_hazards R444, 44_string_prefix R260 to R262). -/
def Obligations.TickWaitsForPrefixed : Prop :=
  ∀ (s t u : State) (i : Instr) (rest : List Byte), s.runState = .running → ¬(s.reg .cs = 0 ∧ s.IP = 0) →
    decode s.fetchBytes = .ok (i, rest) → exec i s.startCycle = .next u → step s = .next t →
      (s.segOvrCnt ≤ 2 → s.repCnt ≤ 2 → (t.segOvrCnt = 2 ∨ t.repCnt = 2 ↔ i.SetsCounter)) ∧
        (u.segOvrCnt = 0 ∧ u.repCnt = 0 ↔ ¬i.SetsCounter ∧ s.segOvrCnt ≤ 1 ∧ s.repCnt ≤ 1) ∧
        (¬(u.segOvrCnt = 0 ∧ u.repCnt = 0) →
          s.tickPending = true ∨ (s.tickCounter + 1) % s.params.tickPeriod = 0 → t.tickPending = true)

/-! ### Registers, memory, flags -/

/-- The 8-bit registers are the halves of `AX CX DX BX`: where `R8[i]` lies in the page, and what a write of a half or of the whole
leaves (10_state R22, R25). That the page begins at linear 0xF0000 is the model's value of `REGS_BASE` (log 2). -/
def Obligations.RegisterHalves : Prop :=
  ∀ (s : State) (i : RegNum),
    s.reg8 i = s.readByte (0xF0000 + BitVec.ofNat 20 (2 * (i.val % 4) + i.val / 4)) ∧
      (i.val < 4 → s.reg (Reg.ofNum i) = s.reg8 (i + 4) ++ s.reg8 i) ∧
      (∀ b j, (s.setReg8 i b).reg8 j = if j = i then b else s.reg8 j) ∧
      (∀ v, i.val < 4 →
        (s.setReg (Reg.ofNum i) v).reg8 i = v.extractLsb' 0 8 ∧ (s.setReg (Reg.ofNum i) v).reg8 (i + 4) = v.extractLsb' 8 8)

/-- A read of the register page is a read of registers and flags: the general registers at `2*i`, the segment registers at
`16 + 2*s`, `ZERO` and the constant cell 0, the flag cells at 40 to 48 as 0 or 1, and the unassigned offsets ordinary memory
(10_state R25, R36, 20_memory R68). That the page
stands at linear 0xF0000 is the model's value of `REGS_BASE` (log 2). -/
def Obligations.RegisterPageRead : Prop :=
  ∀ s : State,
    (∀ i : RegNum, s.readMem .word (0xF0000 + BitVec.ofNat 20 (2 * i.val)) = s.reg (Reg.ofNum i)) ∧
      (∀ sr : SReg, s.readMem .word (0xF0010 + BitVec.ofNat 20 (2 * sr.num)) = s.reg (Reg.ofSReg sr)) ∧
      s.readMem .word 0xF0018 = 0 ∧ s.readByte 0xF0031 = 0 ∧
      s.readByte 0xF0028 = BitVec.ofNat 8 s.flags.CF.toNat ∧ s.readByte 0xF0029 = BitVec.ofNat 8 s.flags.PF.toNat ∧
      s.readByte 0xF002A = BitVec.ofNat 8 s.flags.AF.toNat ∧ s.readByte 0xF002B = BitVec.ofNat 8 s.flags.ZF.toNat ∧
      s.readByte 0xF002C = BitVec.ofNat 8 s.flags.SF.toNat ∧ s.readByte 0xF002D = BitVec.ofNat 8 s.flags.TF.toNat ∧
      s.readByte 0xF002E = BitVec.ofNat 8 s.flags.IF.toNat ∧ s.readByte 0xF002F = BitVec.ofNat 8 s.flags.DF.toNat ∧
      s.readByte 0xF0030 = BitVec.ofNat 8 s.flags.OF.toNat ∧
      ∀ o < 2 ^ 20, (o < 0xF0000 ∨ 0xF001C ≤ o ∧ o < 0xF0028 ∨ 0xF0032 ≤ o) →
        s.readByte (BitVec.ofNat 20 o) = s.mem.get o

/-- A store of one byte, anywhere: into a register, into ordinary memory, 0 or 1 into a flag cell, 0 into `ZERO` or the constant cell;
any other store into a flag cell, `ZERO` or the constant cell is refused; nothing else changes (10_state R36, 20_memory R68). That the page
stands at linear 0xF0000 is the model's value of `REGS_BASE` (log 2). -/
def Obligations.ByteStore : Prop :=
  ∀ (s : State) (o : Nat) (v : Byte), s.mem.wf memSize = true → o < 2 ^ 20 →
    ((o < 0xF0018 ∨ 0xF001A ≤ o ∧ o < 0xF0028 ∨ 0xF0032 ≤ o) →
      ∃ t, s.writeMem .byte (BitVec.ofNat 20 o) v = .next t ∧ HoldsByte t (BitVec.ofNat 20 o) v [] ∧ t.IP = s.IP ∧
        Frame s t [BitVec.ofNat 20 o] []) ∧
    (0xF0028 ≤ o ∧ o ≤ 0xF0030 → v = 0 ∨ v = 1 →
      ∃ t, s.writeMem .byte (BitVec.ofNat 20 o) v = .next t ∧ t.readByte (BitVec.ofNat 20 o) = v ∧ t.IP = s.IP ∧
        Frame s t [BitVec.ofNat 20 o] []) ∧
    (o = 0xF0018 ∨ o = 0xF0019 ∨ o = 0xF0031 → v = 0 → s.writeMem .byte (BitVec.ofNat 20 o) v = .next s) ∧
    (0xF0028 ≤ o ∧ o ≤ 0xF0030 → v ≠ 0 ∧ v ≠ 1 → s.writeMem .byte (BitVec.ofNat 20 o) v = .refused .breaksPageInvariant) ∧
    (o = 0xF0018 ∨ o = 0xF0019 ∨ o = 0xF0031 → v ≠ 0 →
      s.writeMem .byte (BitVec.ofNat 20 o) v = .refused .breaksPageInvariant)

/-- `lin(seg, off) = (16*seg + off) mod 2^20`; a word lies with its low byte at `a` and its high byte at the next linear address
modulo 2^20, and is read and written so (20_memory R61, R62, R63). -/
def Obligations.MemoryAccess : Prop :=
  (∀ seg off : Word, (lin seg off).toNat = (16 * seg.toNat + off.toNat) % 2 ^ 20) ∧ lin 0xFFFF 0x0010 = 0 ∧
    ∀ (s : State) (a : Addr) (v : Word),
      s.readMem .byte a = s.readByte a ∧ s.readMem .word a = s.readByte (a + 1) ++ s.readByte a ∧
        s.writeMem .word a v =
          andThen (s.writeMem .byte a (v.extractLsb' 0 8)) fun t => t.writeMem .byte (a + 1) (v.extractLsb' 8 8)

/-- The packed FLAGS image and its unpacking, bit by bit, and that unpacking a packed image changes no cell (10_state R27). -/
def Obligations.PackedFlags : Prop :=
  (∀ f : Flags,
    f.pack = 0xF002 ||| (BitVec.ofNat 16 f.CF.toNat <<< 0) ||| (BitVec.ofNat 16 f.PF.toNat <<< 2) |||
      (BitVec.ofNat 16 f.AF.toNat <<< 4) ||| (BitVec.ofNat 16 f.ZF.toNat <<< 6) ||| (BitVec.ofNat 16 f.SF.toNat <<< 7) |||
      (BitVec.ofNat 16 f.TF.toNat <<< 8) ||| (BitVec.ofNat 16 f.IF.toNat <<< 9) ||| (BitVec.ofNat 16 f.DF.toNat <<< 10) |||
      (BitVec.ofNat 16 f.OF.toNat <<< 11)) ∧
    (∀ v : Word,
      Flags.unpack v =
        { CF := v.getLsbD 0, PF := v.getLsbD 2, AF := v.getLsbD 4, ZF := v.getLsbD 6, SF := v.getLsbD 7,
          TF := v.getLsbD 8, IF := v.getLsbD 9, DF := v.getLsbD 10, OF := v.getLsbD 11 }) ∧
    (∀ f : Flags,
      f.pack.getLsbD 15 = true ∧ f.pack.getLsbD 14 = true ∧ f.pack.getLsbD 13 = true ∧ f.pack.getLsbD 12 = true ∧
        f.pack.getLsbD 1 = true ∧ f.pack.getLsbD 5 = false ∧ f.pack.getLsbD 3 = false) ∧
    ∀ f : Flags, Flags.unpack f.pack = f

/-- The operand addresses: eight base forms, each alone, with a signed byte and with a word, and the direct address; `SS` by default where
`BP` is used, else `DS`; the override in its place while its counter is not 0; all offsets modulo 2^16 (30_encoding R94, R95, R96,
20_memory R65). -/
def Obligations.OperandAddresses : Prop :=
  ∀ (s : State) (f : AddrForm) (seg : SReg) (b : Word),
    (f, seg, b) ∈
      [(.bxSi, .ds, s.reg .bx + s.reg .si), (.bxDi, .ds, s.reg .bx + s.reg .di), (.bpSi, .ss, s.reg .bp + s.reg .si),
        (.bpDi, .ss, s.reg .bp + s.reg .di), (.si, .ds, s.reg .si), (.di, .ds, s.reg .di), (.bp, .ss, s.reg .bp),
        (.bx, .ds, s.reg .bx)] →
    (∀ d8 : Byte, ∀ d16 : Word,
      (MemOperand.base f).offset s = b ∧ (MemOperand.disp8 f d8).offset s = b + d8.signExtend 16 ∧
        (MemOperand.disp16 f d16).offset s = b + d16 ∧ (MemOperand.direct d16).offset s = d16) ∧
    (∀ (d8 : Byte) (d16 : Word), ∀ m ∈ [MemOperand.base f, .disp8 f d8, .disp16 f d16], m.segment = seg) ∧
    (∀ m : MemOperand,
      (s.segOvrCnt = 0 → m.addr s = lin (s.reg (Reg.ofSReg m.segment)) (m.offset s)) ∧
        (s.segOvrCnt ≠ 0 → m.addr s = lin (s.reg (Reg.ofSReg s.segOvrReg)) (m.offset s))) ∧
    ∀ a : Word, (MemOperand.direct a).segment = .ds

/-! ### Taking an exception and returning from one -/

/-- `deliver(v)`: its pseudocode for every state, and what it leaves where the stack is ordinary memory (60_exceptions R401). -/
def Obligations.Deliver : Prop :=
  ∀ (s : State) (v : Byte),
    (s.deliver v =
      andThen (s.push16 s.flags.pack) fun a =>
      andThen (a.push16 (a.reg .cs)) fun b =>
      andThen (b.push16 b.IP) fun c =>
        .next { c.setReg .cs (c.readMem .word (BitVec.ofNat 20 (4 * v.toNat + 2))) with
          IP := c.readMem .word (BitVec.ofNat 20 (4 * v.toNat))
          flags := { c.flags with TF := false, IF := false } }) ∧
    (s.mem.wf memSize = true → PlainStack s → ∃ t, s.deliver v = .next t ∧ Delivered s t v s.IP)

/-- `deliver` followed at once by `IRET` restores `CS`, `IP`, `SP` and the nine flags, and changes nothing else but the six bytes of
stack (60_exceptions R409). -/
def Obligations.DeliverThenIret : Prop :=
  ∀ (s : State) (v : Byte), s.mem.wf memSize = true → PlainStack s →
    ∃ t u, s.deliver v = .next t ∧ exec .iret t = .next u ∧ u.IP = s.IP ∧ u.regs = s.regs ∧ u.flags = s.flags ∧
      Frame s u s.threePushed []

/-- One push and one pop: where they store and read, and what they leave of `SP`; a push is refused only where it would break an
invariant of the register page (20_memory R77, 10_state R36). -/
def Obligations.PushAndPop : Prop :=
  ∀ (s : State) (v : Word), s.mem.wf memSize = true →
    (canStore .word (s.stackBelow 2) v = true → ∃ t, s.push16 v = .next t ∧ t.IP = s.IP ∧ Pushes s t v) ∧
      (canStore .word (s.stackBelow 2) v = false → s.push16 v = .refused .breaksPageInvariant) ∧
      s.stackTop = s.readMem .word (lin (s.reg .ss) (s.reg .sp)) ∧ s.pop16.IP = s.IP ∧
      SetsReg s s.pop16 .sp (s.reg .sp + 2) ∧
      (Plain .word (s.stackBelow 2) → ∃ t, s.push16 v = .next t ∧ t.stackTop = v ∧ t.pop16.regs = s.regs)

/-- The software interrupts, with their encodings: `IP` first moves past the instruction, then `deliver`; `INTO` delivers only if `OF = 1`
(46_control_transfer R318, R319, R320, 60_exceptions R406). -/
def Obligations.SoftwareInterrupts : Prop :=
  ∀ (s : State) (v : Byte),
    (encode (.int v) = [0xCD, v] ∧ encode .int3 = [0xCC] ∧ encode .into = [0xCE]) ∧
    (s.Fits 2 → exec (.int v) s = { s with IP := s.IP + 2 }.deliver v) ∧
    (s.Fits 1 → exec .int3 s = { s with IP := s.IP + 1 }.deliver 3) ∧
    (s.Fits 1 → s.flags.OF = true → exec .into s = { s with IP := s.IP + 1 }.deliver 4) ∧
    (s.Fits 1 → s.flags.OF = false → exec .into s = .next { s with IP := s.IP + 1 }) ∧
    (¬s.Fits 2 → exec (.int v) s = .fault .runaway) ∧
    (¬s.Fits 1 → exec .int3 s = .fault .runaway ∧ exec .into s = .fault .runaway) ∧
    (s.mem.wf memSize = true → PlainStack s →
      (s.Fits 2 → ∃ t, exec (.int v) s = .next t ∧ Delivered s t v (s.IP + 2)) ∧
      (s.Fits 1 → ∃ t, exec .int3 s = .next t ∧ Delivered s t 3 (s.IP + 1)) ∧
      (s.Fits 1 → s.flags.OF = true → ∃ t, exec .into s = .next t ∧ Delivered s t 4 (s.IP + 1)))

/-- `IRET`, byte `CF`, completes in every state: it pops `IP`, `CS` and the flags image, each read after the writes before it,
and changes nothing else (46_control_transfer R321). -/
def Obligations.InterruptReturn : Prop :=
  ∀ s : State,
    encode .iret = [0xCF] ∧ ∃ t, exec .iret s = .next t ∧ t.IP = s.readMem .word (s.stackAt 0) ∧
      t.reg .cs = (s.setReg .sp (s.reg .sp + 2)).readMem .word (s.stackAt 2) ∧
      t.flags = Flags.unpack (((s.setReg .sp (s.reg .sp + 4)).setReg .cs (t.reg .cs)).readMem .word (s.stackAt 4)) ∧
      t.reg .sp = s.reg .sp + 6 ∧ Frame s t (Reg.cs.bytes ++ Reg.sp.bytes) allFlags

/-- The divide fault, its conditions and its effect: `deliver(0)` with nothing written and `IP` still at the opcode byte
(60_exceptions R403, 42_unary_muldiv R206, R207, 47_bcd R345). -/
def Obligations.DivideFault : Prop :=
  ∀ (s : State) (w : Width) (rm : RM),
    ((s.readLoc w (rm.loc s)).toNat = 0 ∨ 2 ^ w.bits ≤ (s.wideAcc w).toNat / (s.readLoc w (rm.loc s)).toNat →
      exec (.divRm w rm) s = s.deliver 0) ∧
    ((s.readLoc w (rm.loc s)).toInt = 0 ∨
        ¬(-2 ^ (w.bits - 1) ≤ (s.wideAcc w).toInt.tdiv (s.readLoc w (rm.loc s)).toInt ∧
          (s.wideAcc w).toInt.tdiv (s.readLoc w (rm.loc s)).toInt ≤ 2 ^ (w.bits - 1) - 1) →
      exec (.idivRm w rm) s = s.deliver 0) ∧
    exec (.aam 0) s = s.deliver 0 ∧
    (s.mem.wf memSize = true → PlainStack s → ∃ t, s.deliver 0 = .next t ∧ Delivered s t 0 s.IP)

/-! ### Control transfer -/

/-- `JO` to `JA`: encoding, condition and both targets; nothing but `IP` changes (40_cond_jump R132 to R139). -/
def Obligations.ConditionalJumpsUnsigned : Prop :=
  ∀ (s : State) (rel : Byte),
    (encode (.jo rel) = [0x70, rel] ∧ JumpsOn (.jo rel) s s (s.flags.OF = true) rel) ∧
    (encode (.jno rel) = [0x71, rel] ∧ JumpsOn (.jno rel) s s (s.flags.OF = false) rel) ∧
    (encode (.jb rel) = [0x72, rel] ∧ JumpsOn (.jb rel) s s (s.flags.CF = true) rel) ∧
    (encode (.jae rel) = [0x73, rel] ∧ JumpsOn (.jae rel) s s (s.flags.CF = false) rel) ∧
    (encode (.je rel) = [0x74, rel] ∧ JumpsOn (.je rel) s s (s.flags.ZF = true) rel) ∧
    (encode (.jne rel) = [0x75, rel] ∧ JumpsOn (.jne rel) s s (s.flags.ZF = false) rel) ∧
    (encode (.jbe rel) = [0x76, rel] ∧ JumpsOn (.jbe rel) s s (s.flags.CF = true ∨ s.flags.ZF = true) rel) ∧
    (encode (.ja rel) = [0x77, rel] ∧ JumpsOn (.ja rel) s s (s.flags.CF = false ∧ s.flags.ZF = false) rel)

/-- `JS` to `JG`: encoding, condition and both targets; nothing but `IP` changes (40_cond_jump R140 to R147). -/
def Obligations.ConditionalJumpsSigned : Prop :=
  ∀ (s : State) (rel : Byte),
    (encode (.js rel) = [0x78, rel] ∧ JumpsOn (.js rel) s s (s.flags.SF = true) rel) ∧
    (encode (.jns rel) = [0x79, rel] ∧ JumpsOn (.jns rel) s s (s.flags.SF = false) rel) ∧
    (encode (.jp rel) = [0x7A, rel] ∧ JumpsOn (.jp rel) s s (s.flags.PF = true) rel) ∧
    (encode (.jnp rel) = [0x7B, rel] ∧ JumpsOn (.jnp rel) s s (s.flags.PF = false) rel) ∧
    (encode (.jl rel) = [0x7C, rel] ∧ JumpsOn (.jl rel) s s (s.flags.SF ≠ s.flags.OF) rel) ∧
    (encode (.jge rel) = [0x7D, rel] ∧ JumpsOn (.jge rel) s s (s.flags.SF = s.flags.OF) rel) ∧
    (encode (.jle rel) = [0x7E, rel] ∧ JumpsOn (.jle rel) s s (s.flags.ZF = true ∨ s.flags.SF ≠ s.flags.OF) rel) ∧
    (encode (.jg rel) = [0x7F, rel] ∧ JumpsOn (.jg rel) s s (s.flags.ZF = false ∧ s.flags.SF = s.flags.OF) rel)

/-- The jumps after a compare decide the order of its operands, for every form of `CMP`: `JE JNE` equality, `JB JAE JBE JA` without a
sign, `JL JGE JLE JG` with one (43_alu R230, R233, 40_cond_jump R134 to R139, R144 to R147). -/
def Obligations.JumpsAfterCompare : Prop :=
  ∀ (s : State) (w : Width) (op82 : Bool) (reg : RegNum) (rm : RM) (imm8 : Byte) (imm16 : Word) (rel : Byte),
    DecidesOrder (.cmpRmR w .toRm reg rm) s w (s.readLoc w (rm.loc s)) (s.readReg w reg) (2 + rm.dispLen) rel ∧
    DecidesOrder (.cmpRmR w .toReg reg rm) s w (s.readReg w reg) (s.readLoc w (rm.loc s)) (2 + rm.dispLen) rel ∧
    DecidesOrder (.cmpAlImm8 imm8) s .byte s.AL imm8 2 rel ∧
    DecidesOrder (.cmpAxImm16 imm16) s .word (s.reg .ax) imm16 3 rel ∧
    DecidesOrder (.cmpRm8Imm8 op82 rm imm8) s .byte (s.readLoc .byte (rm.loc s)) imm8 (3 + rm.dispLen) rel ∧
    DecidesOrder (.cmpRm16Imm16 rm imm16) s .word (s.readLoc .word (rm.loc s)) imm16 (4 + rm.dispLen) rel ∧
    DecidesOrder (.cmpRm16Simm8 rm imm8) s .word (s.readLoc .word (rm.loc s)) (imm8.signExtend 16) (3 + rm.dispLen) rel

/-- The loops, with their encodings: `CX` is lowered modulo 2^16 and no flag changes; `JCXZ` only tests it (46_control_transfer R301 to
R304). -/
def Obligations.Loops : Prop :=
  ∀ (s s' : State) (rel : Byte), s' = s.setReg .cx (s.reg .cx - 1) →
    (encode (.loopne rel) = [0xE0, rel] ∧ JumpsOn (.loopne rel) s s' (s.reg .cx - 1 ≠ 0 ∧ s.flags.ZF = false) rel) ∧
    (encode (.loope rel) = [0xE1, rel] ∧ JumpsOn (.loope rel) s s' (s.reg .cx - 1 ≠ 0 ∧ s.flags.ZF = true) rel) ∧
    (encode (.loop rel) = [0xE2, rel] ∧ JumpsOn (.loop rel) s s' (s.reg .cx - 1 ≠ 0) rel) ∧
    encode (.jcxz rel) = [0xE3, rel] ∧ JumpsOn (.jcxz rel) s s (s.reg .cx = 0) rel

/-- The jumps: relative targets on exact integers, absolute and far ones taken as they are (46_control_transfer R305 to R309,
R300). That `rel16` is signed even in the example of 70_reset_and_hazards R448 is the model's choice (log 22). -/
def Obligations.Jumps : Prop :=
  ∀ (s : State) (rel8 : Byte) (rel16 off seg : Word) (rm : RM) (m : MemOperand),
    JumpsTo (.jmpRel8 rel8) s s (s.IP.toNat + 2 + rel8.toInt) ∧
    JumpsTo (.jmpRel16 rel16) s s (s.IP.toNat + 3 + rel16.toInt) ∧
    exec (.jmpPtr off seg) s = .next { s.setReg .cs seg with IP := off } ∧
    exec (.jmpRm16 rm) s = .next { s with IP := s.readLoc .word (rm.loc s) } ∧
    exec (.jmpM1616 m) s =
      .next { s.setReg .cs (s.readMem .word (m.addr s + 2)) with IP := s.readMem .word (m.addr s) }

/-- The near calls: the return address `IP + L` is pushed, then control goes to the target, which for `CALL r/m16` is read before the
push; `next` above 0xFFFF ends in Runaway before anything is pushed (46_control_transfer R310, R312, R300). That `rel16` is signed even
where 70_reset_and_hazards R448 has an example to the contrary is the model's choice (log 22). -/
def Obligations.NearCalls : Prop :=
  ∀ (s : State) (rel : Word) (rm : RM), s.mem.wf memSize = true →
    (s.Fits 3 → canStore .word (s.stackBelow 2) (s.IP + 3) = true →
      (0 ≤ s.IP.toNat + 3 + rel.toInt ∧ s.IP.toNat + 3 + rel.toInt ≤ 0xFFFF →
        ∃ t, exec (.callRel16 rel) s = .next t ∧ t.IP = BitVec.ofInt 16 (s.IP.toNat + 3 + rel.toInt) ∧
          Pushes s t (s.IP + 3)) ∧
      (¬(0 ≤ s.IP.toNat + 3 + rel.toInt ∧ s.IP.toNat + 3 + rel.toInt ≤ 0xFFFF) →
        exec (.callRel16 rel) s = .fault .runaway)) ∧
    (s.Fits 3 → canStore .word (s.stackBelow 2) (s.IP + 3) = false →
      exec (.callRel16 rel) s = .refused .breaksPageInvariant) ∧
    (¬s.Fits 3 → exec (.callRel16 rel) s = .fault .runaway) ∧
    (s.Fits (2 + rm.dispLen) → canStore .word (s.stackBelow 2) (s.IP + BitVec.ofNat 16 (2 + rm.dispLen)) = true →
      ∃ t, exec (.callRm16 rm) s = .next t ∧ t.IP = s.readLoc .word (rm.loc s) ∧
        Pushes s t (s.IP + BitVec.ofNat 16 (2 + rm.dispLen))) ∧
    (s.Fits (2 + rm.dispLen) → canStore .word (s.stackBelow 2) (s.IP + BitVec.ofNat 16 (2 + rm.dispLen)) = false →
      exec (.callRm16 rm) s = .refused .breaksPageInvariant) ∧
    (¬s.Fits (2 + rm.dispLen) → exec (.callRm16 rm) s = .fault .runaway)

/-- The far calls: `CS` is pushed, then the return offset, then `CS:IP` is loaded, from memory before the pushes for `m16:16`; what
they leave where the stack is ordinary memory (46_control_transfer R311, R313, R300). -/
def Obligations.FarCalls : Prop :=
  ∀ (s : State) (i : Instr) (len : Nat) (off seg : Word),
    (i = .callPtr off seg ∧ len = 5 ∨
      ∃ m, i = .callM1616 m ∧ len = 2 + m.dispLen ∧ off = s.readMem .word (m.addr s) ∧ seg = s.readMem .word (m.addr s + 2)) →
    (s.Fits len →
      exec i s =
        andThen (s.push16 (s.reg .cs)) fun a =>
        andThen (a.push16 (s.IP + BitVec.ofNat 16 len)) fun b => .next { b.setReg .cs seg with IP := off }) ∧
    (s.Fits len → s.mem.wf memSize = true → Plain .word (s.stackBelow 2) → Plain .word (s.stackBelow 4) →
      ∃ t, exec i s = .next t ∧ t.IP = off ∧ t.reg .cs = seg ∧ t.reg .sp = s.reg .sp - 4 ∧
        t.readMem .word (s.stackBelow 2) = s.reg .cs ∧ t.readMem .word (s.stackBelow 4) = s.IP + BitVec.ofNat 16 len ∧
        Frame s t (bytesAt .word (s.stackBelow 2) ++ bytesAt .word (s.stackBelow 4) ++ Reg.cs.bytes ++ Reg.sp.bytes) []) ∧
    (¬s.Fits len → exec i s = .fault .runaway)

/-- The returns, with their encodings, complete in every state: `IP`, and for the far ones `CS`, from the stack, and `SP`
above what was popped and released (46_control_transfer R314 to R317). -/
def Obligations.Returns : Prop :=
  ∀ (s : State) (imm : Word),
    (encode .ret = [0xC3] ∧ encode (.retImm16 imm) = [0xC2, imm.extractLsb' 0 8, imm.extractLsb' 8 8] ∧
      encode .retf = [0xCB] ∧ encode (.retfImm16 imm) = [0xCA, imm.extractLsb' 0 8, imm.extractLsb' 8 8]) ∧
    exec .ret s = .next { s.setReg .sp (s.reg .sp + 2) with IP := s.readMem .word (s.stackAt 0) } ∧
    exec (.retImm16 imm) s = .next { s.setReg .sp (s.reg .sp + 2 + imm) with IP := s.readMem .word (s.stackAt 0) } ∧
    exec .retf s =
      .next { (s.setReg .sp (s.reg .sp + 4)).setReg .cs ((s.setReg .sp (s.reg .sp + 2)).readMem .word (s.stackAt 2)) with
        IP := s.readMem .word (s.stackAt 0) } ∧
    exec (.retfImm16 imm) s =
      .next { (s.setReg .sp (s.reg .sp + 4 + imm)).setReg .cs
          ((s.setReg .sp (s.reg .sp + 2)).readMem .word (s.stackAt 2)) with
        IP := s.readMem .word (s.stackAt 0) }

/-! ### Data movement -/

/-- The moves to a register or memory: the value stored, the bytes stored to and nothing else; a store that would break an invariant of
the register page is refused, and past offset 0xFFFF the instruction ends in Runaway (41_data_movement R151, R153, R156, R157,
10_state R36). -/
def Obligations.MovesToMemory : Prop :=
  ∀ (s : State) (w : Width) (reg : RegNum) (sr : SReg) (rm : RM) (imm8 : Byte) (imm16 addr : Word), s.mem.wf memSize = true →
    StoresOnly (.movRmR w reg rm) s w (rm.loc s) (s.readReg w reg) (2 + rm.dispLen) ∧
    StoresOnly (.movRm8Imm8 rm imm8) s .byte (rm.loc s) imm8 (3 + rm.dispLen) ∧
    StoresOnly (.movRm16Imm16 rm imm16) s .word (rm.loc s) imm16 (4 + rm.dispLen) ∧
    StoresOnly (.movMoffsAcc w addr) s w (.mem (lin (s.segment .ds) addr)) (s.readReg w 0) 3 ∧
    StoresOnly (.movRm16Sreg sr rm) s .word (rm.loc s) (s.reg (Reg.ofSReg sr)) (2 + rm.dispLen)

/-- The loads of a register: the value, and nothing else changes; for `LES` and `LDS` both words, at linear `a` and `a + 2`, are read
before either register is written (41_data_movement R152, R154, R155, R158, R167, R172 to R177, 20_memory R66). -/
def Obligations.RegisterLoads : Prop :=
  ∀ (s : State) (w : Width) (reg : RegNum) (sr : SReg) (rm : RM) (m : MemOperand) (imm8 : Byte) (imm16 addr : Word),
    RunsTo (.movRRm w reg rm) s (2 + rm.dispLen) (fun t => Sets s t w reg (s.readLoc w (rm.loc s))) ∧
    RunsTo (.movR8Imm8 reg imm8) s 2 (fun t => Sets s t .byte reg imm8) ∧
    RunsTo (.movR16Imm16 reg imm16) s 3 (fun t => Sets s t .word reg imm16) ∧
    RunsTo (.movAccMoffs w addr) s 3 (fun t => Sets s t w 0 (s.readMem w (lin (s.segment .ds) addr))) ∧
    RunsTo (.movSregRm16 sr rm) s (2 + rm.dispLen) (fun t => SetsReg s t (Reg.ofSReg sr) (s.readLoc .word (rm.loc s))) ∧
    RunsTo (.lea reg m) s (2 + m.dispLen) (fun t => SetsReg s t (Reg.ofNum reg) (m.offset s)) ∧
    RunsTo .xlat s 1
      (fun t => Sets s t .byte 0 (s.readByte (lin (s.segment .ds) (s.reg .bx + BitVec.ofNat 16 s.AL.toNat)))) ∧
    RunsTo .cbw s 1 (fun t => Sets s t .byte 4 (BitVec.ofNat 8 (if 0x80 ≤ s.AL.toNat then 0xFF else 0))) ∧
    RunsTo .cwd s 1 (fun t => SetsReg s t .dx (BitVec.ofNat 16 (if 0x8000 ≤ (s.reg .ax).toNat then 0xFFFF else 0))) ∧
    RunsTo .lahf s 1 (fun t => Sets s t .byte 4 (s.flags.pack.extractLsb' 0 8)) ∧
    ∀ (i : Instr) (q : Reg), (i = .les reg m ∧ q = .es ∨ i = .lds reg m ∧ q = .ds) →
      RunsTo i s (2 + m.dispLen) fun t =>
        t.reg (Reg.ofNum reg) = s.readMem .word (m.addr s) ∧ t.reg q = s.readMem .word (m.addr s + 2) ∧
          Frame s t ((Reg.ofNum reg).bytes ++ q.bytes) []

/-- The exchanges: both values are read before either is written; where the memory operand lies over the register in the page, its
store comes last (41_data_movement R169, R171). -/
def Obligations.Exchanges : Prop :=
  ∀ (s : State) (w : Width) (reg : RegNum) (rm : RM),
    RunsTo (.xchgAxR16 reg) s 1 (fun t =>
      t.reg .ax = s.reg (Reg.ofNum reg) ∧ t.reg (Reg.ofNum reg) = s.reg .ax ∧
        Frame s t (Reg.ax.bytes ++ (Reg.ofNum reg).bytes) []) ∧
    (s.mem.wf memSize = true →
      StoresTo (.xchgRmR w reg rm) s (canStoreLoc w (rm.loc s) (s.readReg w reg)) (2 + rm.dispLen) fun t =>
        Holds t w ((rm.loc s).addr w) (s.readReg w reg) ∧
          ((∀ a ∈ bytesAt w (regAddr w reg), a ∉ (rm.loc s).bytes w) → t.readReg w reg = s.readLoc w (rm.loc s)) ∧
          Frame s t (bytesAt w (regAddr w reg) ++ (rm.loc s).bytes w) [])

/-- The pushes: `PUSH r16` and `PUSH r/m16` read their operand after `SP` was lowered, so that `PUSH SP` pushes the new `SP`
(41_data_movement R159, R161, R163, R165). -/
def Obligations.PushInstructions : Prop :=
  ∀ (s : State) (r : RegNum) (sr : SReg) (rm : RM) (i : Instr) (v : Word) (len : Nat), s.mem.wf memSize = true →
    (i, v, len) ∈
      [(.pushR16 r, (s.setReg .sp (s.reg .sp - 2)).reg (Reg.ofNum r), 1), (.pushSreg sr, s.reg (Reg.ofSReg sr), 1),
        (.pushRm16 rm, (s.setReg .sp (s.reg .sp - 2)).readLoc .word (rm.loc s), 2 + rm.dispLen), (.pushf, s.flags.pack, 1)] →
    StoresTo i s (canStore .word (s.stackBelow 2) v) len fun t => Pushes s t v

/-- The pops: the word at `SS:SP`, then `SP` higher by 2, then the destination, so that a pop of `SP` ends with the word; the location
of `POP r/m16` is that before the pop; `POPF` loads all nine flags (41_data_movement R160, R162, R164, R166). -/
def Obligations.PopInstructions : Prop :=
  ∀ (s : State) (r : RegNum) (rm : RM) (v : Word), v = s.readMem .word (lin (s.reg .ss) (s.reg .sp)) →
    (∀ (i : Instr) (q : Reg), (i, q) ∈ [(Instr.popR16 r, Reg.ofNum r), (.popEs, .es), (.popSs, .ss), (.popDs, .ds)] →
      RunsTo i s 1 fun t =>
        t.reg q = v ∧ (q ≠ .sp → t.reg .sp = s.reg .sp + 2) ∧ Frame s t (q.bytes ++ Reg.sp.bytes) []) ∧
    (RunsTo .popf s 1 fun t =>
      FlagsAre t (Flags.unpack v) allFlags ∧ t.reg .sp = s.reg .sp + 2 ∧ Frame s t Reg.sp.bytes allFlags) ∧
    (s.mem.wf memSize = true →
      StoresTo (.popRm16 rm) s (canStoreLoc .word (rm.loc s) v) (2 + rm.dispLen) fun t =>
        Holds t .word ((rm.loc s).addr .word) v ∧ RegIs t .sp (s.reg .sp + 2) ((rm.loc s).bytes .word) ∧
          Frame s t ((rm.loc s).bytes .word ++ Reg.sp.bytes) [])

/-- The seven flag instructions, with their encodings, set one flag each; `SAHF` sets five, from bits 0, 2, 4, 6 and 7 of `AH`;
nothing else changes (48_io_flags_misc R354 to R360, 41_data_movement R168). -/
def Obligations.FlagInstructions : Prop :=
  ∀ s : State,
    (∀ (i : Instr) (op : Byte) (x : Flag) (b : Bool),
      (i, op, x, b) ∈
        [(Instr.clc, (0xF8 : Byte), Flag.cf, false), (.stc, 0xF9, .cf, true), (.cli, 0xFA, .intf, false),
          (.sti, 0xFB, .intf, true), (.cld, 0xFC, .df, false), (.std, 0xFD, .df, true), (.cmc, 0xF5, .cf, !s.flags.CF)] →
      encode i = [op] ∧ RunsTo i s 1 fun t => t.flags.get x = b ∧ Frame s t [] [x]) ∧
    encode .sahf = [0x9E] ∧
    RunsTo .sahf s 1 fun t =>
      t.flags.CF = s.AH.getLsbD 0 ∧ t.flags.PF = s.AH.getLsbD 2 ∧ t.flags.AF = s.AH.getLsbD 4 ∧
        t.flags.ZF = s.AH.getLsbD 6 ∧ t.flags.SF = s.AH.getLsbD 7 ∧ Frame s t [] [.cf, .pf, .af, .zf, .sf]

/-- The instructions that change nothing but `IP`: `NOP HLT WAIT LOCK`, and `ESC` whatever its operand (41_data_movement R170,
44_string_prefix R263, 48_io_flags_misc R361, R362, R363). -/
def Obligations.NoOperations : Prop :=
  ∀ (s : State) (x : Fin 8) (reg : RegNum) (rm : RM) (i : Instr) (len : Nat),
    (encode .nop = [0x90] ∧ encode .hlt = [0xF4] ∧ encode .wait = [0x9B] ∧ encode .lock = [0xF0]) ∧
    ((i, len) ∈ [(Instr.nop, 1), (.hlt, 1), (.wait, 1), (.lock, 1), (.esc x reg rm, 2 + rm.dispLen)] →
      JumpsTo i s s (s.IP.toNat + len))

/-! ### Arithmetic and logic -/

/-- `INC` and `DEC` in all their forms: the result stored, then five flags set; `CF` and everything else stay (41_data_movement R178 to
R181). -/
def Obligations.IncrementDecrement : Prop :=
  ∀ (s : State) (w : Width) (r : RegNum) (rm : RM), s.mem.wf memSize = true →
    (∀ (i : Instr) (wd : Width) (l : Loc) (len : Nat),
      (i = .incR16 r ∧ wd = .word ∧ l = .reg r ∧ len = 1 ∨ i = .incRm w rm ∧ wd = w ∧ l = rm.loc s ∧ len = 2 + rm.dispLen) →
      StoresTo i s (canStoreLoc wd l (s.readLoc wd l + 1)) len fun t =>
        StoresAndFlags s t wd l (s.readLoc wd l + 1) (s.flags.inc (s.readLoc wd l) (s.readLoc wd l + 1))
          [.pf, .af, .zf, .sf, .of] false) ∧
    (∀ (i : Instr) (wd : Width) (l : Loc) (len : Nat),
      (i = .decR16 r ∧ wd = .word ∧ l = .reg r ∧ len = 1 ∨ i = .decRm w rm ∧ wd = w ∧ l = rm.loc s ∧ len = 2 + rm.dispLen) →
      StoresTo i s (canStoreLoc wd l (s.readLoc wd l - 1)) len fun t =>
        StoresAndFlags s t wd l (s.readLoc wd l - 1) (s.flags.dec (s.readLoc wd l) (s.readLoc wd l - 1))
          [.pf, .af, .zf, .sf, .of] false)

/-- The flags of `INC` and `DEC` as numbers: auxiliary carry between bits 3 and 4, signed overflow, sign, zero, the parity of the low
byte; `CF` stays (41_data_movement R182, 10_state R35). -/
def Obligations.IncrementFlagRules : Prop :=
  ∀ (f : Flags) (w : Width) (d : BitVec w.bits),
    ((f.inc d (d + 1)).CF = f.CF ∧ (f.dec d (d - 1)).CF = f.CF) ∧
    ((f.inc d (d + 1)).AF = decide (d.toNat % 16 = 15) ∧ (f.dec d (d - 1)).AF = decide (d.toNat % 16 = 0)) ∧
    ((f.inc d (d + 1)).OF = decide (d.toInt + 1 = 2 ^ (w.bits - 1)) ∧
      (f.dec d (d - 1)).OF = decide (d.toInt = -2 ^ (w.bits - 1))) ∧
    ((f.inc d (d + 1)).ZF = decide (d.toNat + 1 = 2 ^ w.bits) ∧ (f.dec d (d - 1)).ZF = decide (d.toNat = 1)) ∧
    ((f.inc d (d + 1)).SF = (d + 1).msb ∧ (f.dec d (d - 1)).SF = (d - 1).msb) ∧
    (f.inc d (d + 1)).PF = parity8 ((d + 1).setWidth 8) ∧ (f.dec d (d - 1)).PF = parity8 ((d - 1).setWidth 8)

/-- `NOT` stores the complement and changes no flag; `NEG` stores the negation, then sets the six flags; every form of `TEST` stores
nothing and sets five flags by the logic policy (42_unary_muldiv R201, R202, R203, 43_alu R222, R231, R232). -/
def Obligations.NotNegTest : Prop :=
  ∀ (s : State) (w : Width) (reg : RegNum) (rm : RM) (imm8 : Byte) (imm16 : Word), s.mem.wf memSize = true →
    StoresOnly (.notRm w rm) s w (rm.loc s) (~~~s.readLoc w (rm.loc s)) (2 + rm.dispLen) ∧
    (StoresTo (.negRm w rm) s (canStoreLoc w (rm.loc s) (-s.readLoc w (rm.loc s))) (2 + rm.dispLen) fun t =>
      StoresAndFlags s t w (rm.loc s) (-s.readLoc w (rm.loc s))
        (s.flags.arith 0 (s.readLoc w (rm.loc s)) (-s.readLoc w (rm.loc s)) (s.readLoc w (rm.loc s) != 0)) statusFlags false) ∧
    FlagsOnly (.testRm8Imm8 rm imm8) s (s.flags.logic (s.readLoc .byte (rm.loc s) &&& imm8)) logicFlags (3 + rm.dispLen) ∧
    FlagsOnly (.testRm16Imm16 rm imm16) s (s.flags.logic (s.readLoc .word (rm.loc s) &&& imm16)) logicFlags (4 + rm.dispLen) ∧
    FlagsOnly (.testRmR w reg rm) s (s.flags.logic (s.readLoc w (rm.loc s) &&& s.readReg w reg)) logicFlags (2 + rm.dispLen) ∧
    FlagsOnly (.testAlImm8 imm8) s (s.flags.logic (s.AL &&& imm8)) logicFlags 2 ∧
    FlagsOnly (.testAxImm16 imm16) s (s.flags.logic (s.reg .ax &&& imm16)) logicFlags 3

/-- The two-operand operations `ADD OR ADC SBB AND SUB XOR CMP` in all their forms, `Instr.aluRmR .add` being `addRmR` and so on: both
operands read first, the flags set, then the result stored, but for `CMP` (43_alu R220, R223 to R230). -/
def Obligations.TwoOperandForms : Prop :=
  ∀ (s : State) (op : AluOp) (w : Width) (d : Direction) (op82 : Bool) (reg : RegNum) (rm : RM) (imm8 : Byte) (imm16 : Word),
    s.mem.wf memSize = true →
    (d = .toRm → AluRuns (.aluRmR op w d reg rm) s op w (rm.loc s) (s.readReg w reg) (2 + rm.dispLen)) ∧
    (d = .toReg → AluRuns (.aluRmR op w d reg rm) s op w (.reg reg) (s.readLoc w (rm.loc s)) (2 + rm.dispLen)) ∧
    AluRuns (.aluAlImm8 op imm8) s op .byte (.reg 0) imm8 2 ∧
    AluRuns (.aluAxImm16 op imm16) s op .word (.reg 0) imm16 3 ∧
    AluRuns (.aluRm8Imm8 op op82 rm imm8) s op .byte (rm.loc s) imm8 (3 + rm.dispLen) ∧
    AluRuns (.aluRm16Imm16 op rm imm16) s op .word (rm.loc s) imm16 (4 + rm.dispLen) ∧
    AluRuns (.aluRm16Simm8 op rm imm8) s op .word (rm.loc s) (imm8.signExtend 16) (3 + rm.dispLen)

/-- The results and the flags of the two-operand operations. Arithmetic, on exact integers: `CF` the carry or borrow out, `OF` the exact
signed result out of range, `AF` the carry or borrow between bits 3 and 4. Logic, bit by bit: `CF = OF = 0`, `AF` as before
(43_alu R221 to R230, R233). -/
def Obligations.TwoOperandRules : Prop :=
  ∀ (f : Flags) (w : Width) (d e : BitVec w.bits) (c : Nat), c = f.CF.toNat →
    ((aluValue .add d e f.CF).toNat = (d.toNat + e.toNat) % 2 ^ w.bits ∧
      (aluFlags .add d e f).CF = decide (2 ^ w.bits ≤ d.toNat + e.toNat) ∧
      (aluFlags .add d e f).OF =
        decide (¬(-2 ^ (w.bits - 1) ≤ d.toInt + e.toInt ∧ d.toInt + e.toInt ≤ 2 ^ (w.bits - 1) - 1)) ∧
      (aluFlags .add d e f).AF = decide (16 ≤ d.toNat % 16 + e.toNat % 16)) ∧
    ((aluValue .adc d e f.CF).toNat = (d.toNat + e.toNat + c) % 2 ^ w.bits ∧
      (aluFlags .adc d e f).CF = decide (2 ^ w.bits ≤ d.toNat + e.toNat + c) ∧
      (aluFlags .adc d e f).OF =
        decide (¬(-2 ^ (w.bits - 1) ≤ d.toInt + e.toInt + c ∧ d.toInt + e.toInt + c ≤ 2 ^ (w.bits - 1) - 1)) ∧
      (aluFlags .adc d e f).AF = decide (16 ≤ d.toNat % 16 + e.toNat % 16 + c)) ∧
    ((aluValue .sbb d e f.CF).toInt = (d.toInt - e.toInt - c).bmod (2 ^ w.bits) ∧
      (aluFlags .sbb d e f).CF = decide (d.toNat < e.toNat + c) ∧
      (aluFlags .sbb d e f).OF =
        decide (¬(-2 ^ (w.bits - 1) ≤ d.toInt - e.toInt - c ∧ d.toInt - e.toInt - c ≤ 2 ^ (w.bits - 1) - 1)) ∧
      (aluFlags .sbb d e f).AF = decide (d.toNat % 16 < e.toNat % 16 + c)) ∧
    (∀ op ∈ [AluOp.sub, .cmp],
      (aluValue op d e f.CF).toInt = (d.toInt - e.toInt).bmod (2 ^ w.bits) ∧
      (aluFlags op d e f).CF = decide (d.toNat < e.toNat) ∧
      (aluFlags op d e f).OF =
        decide (¬(-2 ^ (w.bits - 1) ≤ d.toInt - e.toInt ∧ d.toInt - e.toInt ≤ 2 ^ (w.bits - 1) - 1)) ∧
      (aluFlags op d e f).AF = decide (d.toNat % 16 < e.toNat % 16)) ∧
    (∀ i, (aluValue .or d e f.CF).getLsbD i = (d.getLsbD i || e.getLsbD i) ∧
      (aluValue .and d e f.CF).getLsbD i = (d.getLsbD i && e.getLsbD i) ∧
      (aluValue .xor d e f.CF).getLsbD i = (d.getLsbD i ^^ e.getLsbD i)) ∧
    ∀ op ∈ [AluOp.or, .and, .xor],
      (aluFlags op d e f).CF = false ∧ (aluFlags op d e f).OF = false ∧ (aluFlags op d e f).AF = f.AF

/-- `SetSZP` and `parity8`, and that every two-operand operation takes its sign, zero and parity flag from its result
(10_state R35, 43_alu R221, R222). -/
def Obligations.SignZeroParity : Prop :=
  (∀ b : Byte,
    parity8 b =
      !(b.getLsbD 0 ^^ b.getLsbD 1 ^^ b.getLsbD 2 ^^ b.getLsbD 3 ^^ b.getLsbD 4 ^^ b.getLsbD 5 ^^ b.getLsbD 6 ^^
        b.getLsbD 7)) ∧
  (parity8 0 = true ∧ parity8 1 = false ∧ parity8 3 = true ∧ parity8 0xFF = true) ∧
  ∀ (f : Flags) (w : Width) (op : AluOp) (d e r : BitVec w.bits),
    ((f.setSZP r).SF = decide (2 ^ (w.bits - 1) ≤ r.toNat) ∧ (f.setSZP r).ZF = decide (r.toNat = 0) ∧
      (f.setSZP r).PF = parity8 (BitVec.ofNat 8 r.toNat)) ∧
    (aluFlags op d e f).SF = (f.setSZP (aluValue op d e f.CF)).SF ∧
    (aluFlags op d e f).ZF = (f.setSZP (aluValue op d e f.CF)).ZF ∧
    (aluFlags op d e f).PF = (f.setSZP (aluValue op d e f.CF)).PF

/-- The shifts and rotates in all their forms, `Instr.shiftRm .rol` being `rolRm` and so on: the count from 1, `CL` or the immediate,
modulo 32; a count of 0 changes nothing but `IP` (45_shift_rotate R280, R281 to R287, R289). -/
def Obligations.ShiftForms : Prop :=
  ∀ (s : State) (op : ShiftOp) (w : Width) (rm : RM) (imm : Byte), s.mem.wf memSize = true →
    ShiftRuns (.shiftRm op w .one rm) s op w (rm.loc s) 1 (2 + rm.dispLen) ∧
    ShiftRuns (.shiftRm op w .cl rm) s op w (rm.loc s) ((s.reg .cx).toNat % 32) (2 + rm.dispLen) ∧
    ShiftRuns (.shiftRmImm8 op w rm imm) s op w (rm.loc s) (imm.toNat % 32) (3 + rm.dispLen)

/-- The results and carries of the shifts and rotates for every count from 1 to 31: rotates bit by bit, `RCL` and `RCR` on the value with
the carry above it, shifts as products and quotients; `OF` after a count of 1 says whether the top bit changed
(45_shift_rotate R281 to R287, R289). -/
def Obligations.ShiftRules : Prop :=
  ∀ (f : Flags) (w : Width) (d : BitVec w.bits) (cf : Bool) (c0 draw : Nat), 1 ≤ c0 → c0 ≤ 31 →
    (∀ i < w.bits, (shiftValue .rol d cf c0).getLsbD i = d.getLsbD ((i + 32 - c0) % w.bits)) ∧
    (shiftFlags .rol d cf c0 draw f).CF = (shiftValue .rol d cf c0).getLsbD 0 ∧
    (∀ i < w.bits, (shiftValue .ror d cf c0).getLsbD i = d.getLsbD ((i + c0) % w.bits)) ∧
    (shiftFlags .ror d cf c0 draw f).CF = (shiftValue .ror d cf c0).getLsbD (w.bits - 1) ∧
    (∀ i ≤ w.bits,
      (BitVec.cons (shiftFlags .rcl d cf c0 draw f).CF (shiftValue .rcl d cf c0)).getLsbD i =
        (BitVec.cons cf d).getLsbD ((i + 4 * (w.bits + 1) - c0) % (w.bits + 1))) ∧
    (∀ i ≤ w.bits,
      (BitVec.cons (shiftFlags .rcr d cf c0 draw f).CF (shiftValue .rcr d cf c0)).getLsbD i =
        (BitVec.cons cf d).getLsbD ((i + c0) % (w.bits + 1))) ∧
    (shiftValue .shl d cf c0).toNat = d.toNat * 2 ^ c0 % 2 ^ w.bits ∧
    (shiftFlags .shl d cf c0 draw f).CF = (decide (c0 ≤ w.bits) && d.getLsbD (w.bits - c0)) ∧
    (shiftValue .shr d cf c0).toNat = d.toNat / 2 ^ c0 ∧
    (shiftFlags .shr d cf c0 draw f).CF = (decide (c0 ≤ w.bits) && d.getLsbD (c0 - 1)) ∧
    (shiftValue .sar d cf c0).toInt = d.toInt / 2 ^ c0 ∧
    (shiftFlags .sar d cf c0 draw f).CF = d.getLsbD (min c0 w.bits - 1) ∧
    ∀ op : ShiftOp,
      (c0 = 1 → (shiftFlags op d cf c0 draw f).OF = ((shiftValue op d cf c0).msb ^^ d.msb)) ∧
        (shiftFlags op d cf c0 draw f).AF = f.AF ∧
        (shiftSetsSZP op = true →
          (shiftFlags op d cf c0 draw f).SF = (shiftValue op d cf c0).msb ∧
            (shiftFlags op d cf c0 draw f).ZF = decide ((shiftValue op d cf c0).toNat = 0) ∧
            (shiftFlags op d cf c0 draw f).PF = parity8 ((shiftValue op d cf c0).setWidth 8))

/-- The multiplies are exact at double width; `CF = OF` says whether the high half is used; the operand is read before the accumulator
is written (42_unary_muldiv R204, R205, R208). -/
def Obligations.Multiplies : Prop :=
  ∀ (s : State) (rm : RM) (a b : Byte) (x y : Word),
    a = s.AL → b = s.readLoc .byte (rm.loc s) → x = s.reg .ax → y = s.readLoc .word (rm.loc s) →
    RunsTo (.mulRm .byte rm) s (2 + rm.dispLen) (fun t =>
      (t.reg .ax).toNat = a.toNat * b.toNat ∧ t.flags.CF = decide (2 ^ 8 ≤ a.toNat * b.toNat) ∧
        t.flags.OF = t.flags.CF ∧ Frame s t Reg.ax.bytes statusFlags) ∧
    RunsTo (.mulRm .word rm) s (2 + rm.dispLen) (fun t =>
      (t.reg .dx).toNat * 2 ^ 16 + (t.reg .ax).toNat = x.toNat * y.toNat ∧
        t.flags.CF = decide (2 ^ 16 ≤ x.toNat * y.toNat) ∧ t.flags.OF = t.flags.CF ∧
        Frame s t (Reg.ax.bytes ++ Reg.dx.bytes) statusFlags) ∧
    RunsTo (.imulRm .byte rm) s (2 + rm.dispLen) (fun t =>
      (t.reg .ax).toInt = a.toInt * b.toInt ∧
        t.flags.CF = decide (¬(-128 ≤ a.toInt * b.toInt ∧ a.toInt * b.toInt ≤ 127)) ∧
        t.flags.OF = t.flags.CF ∧ Frame s t Reg.ax.bytes statusFlags) ∧
    RunsTo (.imulRm .word rm) s (2 + rm.dispLen) (fun t =>
      (t.reg .dx ++ t.reg .ax).toInt = x.toInt * y.toInt ∧
        t.flags.CF = decide (¬(-32768 ≤ x.toInt * y.toInt ∧ x.toInt * y.toInt ≤ 32767)) ∧
        t.flags.OF = t.flags.CF ∧ Frame s t (Reg.ax.bytes ++ Reg.dx.bytes) statusFlags)

/-- A divide whose divisor is not 0 and whose quotient fits completes, with `N = q*v + r`: unsigned with `r < v`, signed with the quotient
truncated toward zero and the remainder signed as the dividend (42_unary_muldiv R206, R207, R208). -/
def Obligations.Divides : Prop :=
  ∀ (s : State) (rm : RM) (v : Byte) (y x : Word) (n : BitVec 32),
    v = s.readLoc .byte (rm.loc s) → y = s.readLoc .word (rm.loc s) → x = s.reg .ax → n = s.reg .dx ++ s.reg .ax →
    (v ≠ 0 → x.toNat / v.toNat < 2 ^ 8 → RunsTo (.divRm .byte rm) s (2 + rm.dispLen) fun t =>
      x.toNat = (t.reg8 0).toNat * v.toNat + (t.reg8 4).toNat ∧ (t.reg8 4).toNat < v.toNat ∧
        Frame s t Reg.ax.bytes statusFlags) ∧
    (y ≠ 0 → n.toNat / y.toNat < 2 ^ 16 → RunsTo (.divRm .word rm) s (2 + rm.dispLen) fun t =>
      n.toNat = (t.reg .ax).toNat * y.toNat + (t.reg .dx).toNat ∧ (t.reg .dx).toNat < y.toNat ∧
        Frame s t (Reg.ax.bytes ++ Reg.dx.bytes) statusFlags) ∧
    (v ≠ 0 → -128 ≤ x.toInt.tdiv v.toInt ∧ x.toInt.tdiv v.toInt ≤ 127 →
      RunsTo (.idivRm .byte rm) s (2 + rm.dispLen) fun t =>
        (t.reg8 0).toInt = x.toInt.tdiv v.toInt ∧ (t.reg8 4).toInt = x.toInt.tmod v.toInt ∧
          Frame s t Reg.ax.bytes statusFlags) ∧
    (y ≠ 0 → -32768 ≤ n.toInt.tdiv y.toInt ∧ n.toInt.tdiv y.toInt ≤ 32767 →
      RunsTo (.idivRm .word rm) s (2 + rm.dispLen) fun t =>
        (t.reg .ax).toInt = n.toInt.tdiv y.toInt ∧ (t.reg .dx).toInt = n.toInt.tmod y.toInt ∧
          Frame s t (Reg.ax.bytes ++ Reg.dx.bytes) statusFlags)

/-- The BCD adjustments as their pseudocode writes them, with the flags they define; the others of the six are draws
(47_bcd R341 to R346). -/
def Obligations.DecimalAdjustments : Prop :=
  ∀ (s : State) (base : Byte) (low high : Bool),
    low = (decide (9 < s.AL.toNat % 16) || s.flags.AF) → high = (decide (0x99 < s.AL.toNat) || s.flags.CF) →
    RunsTo .daa s 1 (fun t =>
      t.AL = s.AL + (if low then 0x06 else 0) + (if high then 0x60 else 0) ∧ t.flags.AF = low ∧ t.flags.CF = high ∧
        FlagsAre t (s.flags.setSZP t.AL) [.sf, .zf, .pf] ∧ Frame s t [regAddr .byte 0] statusFlags) ∧
    RunsTo .das s 1 (fun t =>
      t.AL = s.AL - (if low then 0x06 else 0) - (if high then 0x60 else 0) ∧ t.flags.AF = low ∧
        t.flags.CF = (high || low && (s.flags.CF || decide (s.AL.toNat < 6))) ∧
        FlagsAre t (s.flags.setSZP t.AL) [.sf, .zf, .pf] ∧ Frame s t [regAddr .byte 0] statusFlags) ∧
    RunsTo .aaa s 1 (fun t =>
      t.reg .ax = (s.reg .ax + if low then 0x0106 else 0) &&& 0xFF0F ∧ t.flags.AF = low ∧ t.flags.CF = low ∧
        Frame s t Reg.ax.bytes statusFlags) ∧
    RunsTo .aas s 1 (fun t =>
      t.reg .ax = (s.reg .ax - if low then 0x0106 else 0) &&& 0xFF0F ∧ t.flags.AF = low ∧ t.flags.CF = low ∧
        Frame s t Reg.ax.bytes statusFlags) ∧
    (base ≠ 0 → RunsTo (.aam base) s 2 fun t =>
      (t.reg8 4).toNat = s.AL.toNat / base.toNat ∧ t.AL.toNat = s.AL.toNat % base.toNat ∧
        FlagsAre t (s.flags.setSZP t.AL) [.sf, .zf, .pf] ∧ Frame s t Reg.ax.bytes statusFlags) ∧
    RunsTo (.aad base) s 2 (fun t =>
      t.AL.toNat = (s.AL.toNat + s.AH.toNat * base.toNat) % 2 ^ 8 ∧ t.AH = 0 ∧
        FlagsAre t (s.flags.setSZP t.AL) [.sf, .zf, .pf] ∧ Frame s t Reg.ax.bytes statusFlags)

/-- `ADD AL, imm8` then `DAA` adds two packed decimal numbers: `AL` is the sum modulo 100 in packed decimal, `CF` the hundred
(43_alu R223, 47_bcd R341). -/
def Obligations.DecimalAddition : Prop :=
  ∀ (s : State) (x y : Nat), x < 100 → y < 100 → s.Fits 3 → s.AL = BitVec.ofNat 8 (x / 10 * 16 + x % 10) →
    ∃ t u, exec (.addAlImm8 (BitVec.ofNat 8 (y / 10 * 16 + y % 10))) s = .next t ∧ exec .daa t = .next u ∧
      u.AL = BitVec.ofNat 8 ((x + y) % 100 / 10 * 16 + (x + y) % 10) ∧ u.flags.CF = decide (100 ≤ x + y) ∧
      u.flags.ZF = decide ((x + y) % 100 = 0)

/-! ### Strings and prefixes -/

/-- The prefixes: what each sets, how it restores the counter of the other kind, and the decrement at the start of every cycle
(44_string_prefix R260, R261, R262). -/
def Obligations.PrefixInstructions : Prop :=
  ∀ (s : State) (sr : SReg) (mode : RepMode),
    JumpsTo (.segOverride sr) s
      { s with segOvrCnt := 2, segOvrReg := sr, repCnt := if s.repCnt ≠ 0 then s.repCnt + 1 else s.repCnt } (s.IP.toNat + 1) ∧
    JumpsTo (.rep mode) s
      { s with repCnt := 2, repMode := mode, segOvrCnt := if s.segOvrCnt ≠ 0 then s.segOvrCnt + 1 else s.segOvrCnt }
      (s.IP.toNat + 1) ∧
    s.startCycle.segOvrCnt = (if s.segOvrCnt ≠ 0 then s.segOvrCnt - 1 else 0) ∧
    s.startCycle.repCnt = (if s.repCnt ≠ 0 then s.repCnt - 1 else 0) ∧
    FrameButDraws { s with segOvrCnt := s.startCycle.segOvrCnt, repCnt := s.startCycle.repCnt } s.startCycle [] []

/-- `MOVS STOS LODS` without a repeat prefix: the element, then the indices; for a destination in ordinary memory what is left of each,
and for every other the store before the updates
(44_string_prefix R250 to R252, R254 to R256).
The last clause holds for a destination over the cell of `DF` as well: that an element stored there changes the index update of its
own iteration is the model's reading (log 19). -/
def Obligations.StringElements : Prop :=
  ∀ (s : State) (w : Width), s.mem.wf memSize = true → s.repCnt = 0 →
    (Plain w (s.dstAt w 0) → RunsTo (.movs w) s 1 fun t =>
      Holds t w (s.dstAt w 0) (s.readMem w (s.srcAt w 0)) ∧ t.reg .si = s.reg .si + s.delta w ∧
        t.reg .di = s.reg .di + s.delta w ∧ Frame s t (bytesAt w (s.dstAt w 0) ++ Reg.si.bytes ++ Reg.di.bytes) []) ∧
    (Plain w (s.dstAt w 0) → RunsTo (.stos w) s 1 fun t =>
      Holds t w (s.dstAt w 0) (s.readReg w 0) ∧ t.reg .di = s.reg .di + s.delta w ∧
        Frame s t (bytesAt w (s.dstAt w 0) ++ Reg.di.bytes) []) ∧
    (RunsTo (.lods w) s 1 fun t =>
      t.readReg w 0 = s.readMem w (s.srcAt w 0) ∧ t.reg .si = s.reg .si + s.delta w ∧
        Frame s t (bytesAt w (regAddr w 0) ++ Reg.si.bytes) []) ∧
    (s.Fits 1 →
      exec (.movs w) s =
        (andThen (s.writeMem w (s.dstAt w 0) (s.readMem w (s.srcAt w 0))) fun u =>
          .next { (u.stepSI w).stepDI w with IP := s.IP + 1 }) ∧
      exec (.stos w) s =
        andThen (s.writeMem w (s.dstAt w 0) (s.readReg w 0)) fun u => .next { u.stepDI w with IP := s.IP + 1 })

/-- `REP STOS`, `REP MOVS`, `REP LODS`. For every state: `CX` iterations, each on what the one before left, then `CX` is cleared; a store
that is refused ends it; `CX` is read once. On ordinary memory, the source apart from the destination: the elements, the indices,
and nothing else changed. A destination one element after the source is filled with the first element. With `CX = 0` nothing but
`IP` changes (44_string_prefix R252, R254 to R256). That `DF` is read after an iteration's store is the model's reading (log 19), and
that iterations have draws of their own is its form of free values (log 25). -/
def Obligations.RepeatedStrings : Prop :=
  ∀ (s : State) (w : Width) (n : Nat), s.mem.wf memSize = true → s.Repeats n →
    ((∀ k < n, Plain w (s.dstAt w k)) → RunsTo (.stos w) s 1 fun t =>
      (∀ k < n, Holds t w (s.dstAt w k) (s.readReg w 0)) ∧ t.reg .di = s.reg .di + BitVec.ofNat 16 n * s.delta w ∧
        t.reg .cx = 0 ∧ FrameButDraws s t (s.dstBytes w n ++ Reg.di.bytes ++ Reg.cx.bytes) []) ∧
    ((∀ k < n, Plain w (s.dstAt w k) ∧ Plain w (s.srcAt w k) ∧ ∀ a ∈ bytesAt w (s.srcAt w k), a ∉ s.dstBytes w n) →
      RunsTo (.movs w) s 1 fun t =>
        (∀ k < n, Holds t w (s.dstAt w k) (s.readMem w (s.srcAt w k))) ∧
          t.reg .si = s.reg .si + BitVec.ofNat 16 n * s.delta w ∧
          t.reg .di = s.reg .di + BitVec.ofNat 16 n * s.delta w ∧ t.reg .cx = 0 ∧
          FrameButDraws s t (s.dstBytes w n ++ Reg.si.bytes ++ Reg.di.bytes ++ Reg.cx.bytes) []) ∧
    (n ≠ 0 → Plain w (s.srcAt w (n - 1)) → RunsTo (.lods w) s 1 fun t =>
      t.readReg w 0 = s.readMem w (s.srcAt w (n - 1)) ∧ t.reg .si = s.reg .si + BitVec.ofNat 16 n * s.delta w ∧
        t.reg .cx = 0 ∧ FrameButDraws s t (bytesAt w (regAddr w 0) ++ Reg.si.bytes ++ Reg.cx.bytes) []) ∧
    (∀ (i : Instr) (one : State → Result) (u : Nat → State) (m : Nat),
      (i, one) ∈ [(Instr.movs w, State.movsOnce w), (.stos w, State.stosOnce w), (.lods w, State.lodsOnce w)] →
      Iterates one s u m →
        (m = n → RunsTo i s 1 fun t => t = { (u n).setReg .cx 0 with IP := t.IP }) ∧
          (m < n → ∀ x, one (u m) = .refused x → exec i s = .refused x)) ∧
    (n ≠ 0 → Plain w (s.srcAt w 0) → (∀ k < n, Plain w (s.dstAt w k)) → (∀ k, k + 1 < n → s.srcAt w (k + 1) = s.dstAt w k) →
      RunsTo (.movs w) s 1 fun t => ∀ k < n, t.readMem w (s.dstAt w k) = s.readMem w (s.srcAt w 0)) ∧
    (n = 0 → ∀ i ∈ [Instr.movs w, .stos w, .lods w], JumpsTo i s s (s.IP.toNat + 1))

/-- `CMPS` and `SCAS` complete in every state, store nothing, and change no register but their indices and, repeated, `CX`; alone they
compare one pair; repeated with `CX = 0` they change nothing but `IP` (44_string_prefix R253, R257, R258). That the second element of
`CMPS` is read with a draw of its own is the model's form of free values (log 25). -/
def Obligations.CompareStrings : Prop :=
  ∀ (s : State) (w : Width),
    (RunsTo (.cmps w) s 1 fun t => FrameButDraws s t (Reg.si.bytes ++ Reg.di.bytes ++ Reg.cx.bytes) statusFlags) ∧
    (RunsTo (.scas w) s 1 fun t => FrameButDraws s t (Reg.di.bytes ++ Reg.cx.bytes) statusFlags) ∧
    (s.repCnt = 0 →
      (RunsTo (.cmps w) s 1 fun t =>
        FlagsAre t (aluFlags .cmp (s.readMem w (s.srcAt w 0)) (s.nextDraw.readMem w (s.dstAt w 0)) s.flags) statusFlags ∧
          t.reg .si = s.reg .si + s.delta w ∧ t.reg .di = s.reg .di + s.delta w ∧ t.reg .cx = s.reg .cx) ∧
      RunsTo (.scas w) s 1 fun t =>
        FlagsAre t (aluFlags .cmp (s.readReg w 0) (s.readMem w (s.dstAt w 0)) s.flags) statusFlags ∧
          t.reg .di = s.reg .di + s.delta w ∧ t.reg .cx = s.reg .cx) ∧
    (s.Repeats 0 → ∀ i ∈ [Instr.cmps w, .scas w], JumpsTo i s s (s.IP.toNat + 1))

/-- Repeated `CMPS` and `SCAS` on ordinary memory end at the first pair `m` that ends the loop: the last of `CX` pairs, or the first whose
equality is not that of the prefix; `CX` is then lower by `m + 1`, the indices have moved by `m + 1` elements, and the flags are those
of comparing that pair (44_string_prefix R253, R257, R258). -/
def Obligations.RepeatedCompare : Prop :=
  ∀ (s : State) (w : Width) (n m : Nat) (i : Instr) (d e : Nat → BitVec w.bits), s.Repeats n → m < n →
    (i = .cmps w ∧ d = (fun k => s.readMem w (s.srcAt w k)) ∧ (∀ k < n, Plain w (s.srcAt w k)) ∨
      i = .scas w ∧ d = fun _ => s.readReg w 0) →
    e = (fun k => s.readMem w (s.dstAt w k)) → (∀ k < n, Plain w (s.dstAt w k)) →
    (∀ k < m, (d k = e k ↔ s.repMode = .repe)) → (m + 1 = n ∨ ¬(d m = e m ↔ s.repMode = .repe)) →
      RunsTo i s 1 fun t =>
        (t.reg .cx).toNat = n - m - 1 ∧ t.reg .di = s.reg .di + BitVec.ofNat 16 (m + 1) * s.delta w ∧
          (i = .cmps w → t.reg .si = s.reg .si + BitVec.ofNat 16 (m + 1) * s.delta w) ∧
          FlagsAre t (aluFlags .cmp (d m) (e m) s.flags) statusFlags ∧ t.flags.ZF = decide (d m = e m)

/-! ### Ports and hooks -/

/-- `IN` and `OUT` at ports that are not special: plain byte cells, a word at two consecutive ports, the low byte first; nothing else
changes (10_state R30, 48_io_flags_misc R350 to R353). For an instance of `PortDevice` that acts at plain ports too, where 20_memory R75
calls it, its private state and the bytes of memory that it declares are open; that this is a property of the instance is the model's
reading of R30 and R75 (log 14). The counter of draws is the model's (log 25). -/
def Obligations.PlainPorts : Prop :=
  ∀ (s : State) (w : Width) (port : Byte) (p : Word), s.mem.wf memSize = true → s.ports.wf portCount = true →
    (∀ q ∈ portsOf w p, q ∉ Config.specialPorts) →
    (∀ (i : Instr) (len : Nat),
      (i = .inAccImm8 w port ∧ len = 2 ∧ p = port.setWidth 16 ∨ i = .inAccDx w ∧ len = 1 ∧ p = s.reg .dx) →
        RunsTo i s len fun t =>
          t.readReg w 0 = s.portsAt w p ∧ t.ports = s.ports ∧ t.specialPorts = s.specialPorts ∧
            (s.params.deviceEverywhere = false → FrameButDraws s t (bytesAt w (regAddr w 0)) []) ∧
            FrameButDraws s (t.withPortsOf s) (bytesAt w (regAddr w 0) ++ s.deviceCells w p) []) ∧
    (∀ (i : Instr) (len : Nat),
      (i = .outImm8Acc w port ∧ len = 2 ∧ p = port.setWidth 16 ∨ i = .outDxAcc w ∧ len = 1 ∧ p = s.reg .dx) →
        RunsTo i s len fun t =>
          t.portsAt w p = s.readReg w 0 ∧
            (∀ q, q ∉ portsOf w p → t.ports.get q.toNat = s.ports.get q.toNat) ∧ t.specialPorts = s.specialPorts ∧
            t.ports.wf portCount = true ∧
            (s.params.deviceEverywhere = false → FrameButDraws s { t with ports := s.ports } [] []) ∧
            FrameButDraws s (t.withPortsOf s) (s.deviceCells w p) [])

/-- `IN` and `OUT` at every port, special ones included, complete; of a word access at a special and a plain port the plain half is a
plain cell. What an `IN` reads from a special port is open, and so are `PortDevice`'s private state and the bytes of memory it declares;
nothing else changes but the ports that an `OUT` stores to (20_memory R75, R76, 60_exceptions R413). No byte of the register page, which
stands at linear 0xF0000 by the model's value of `REGS_BASE` (log 2), is among those bytes. That whether `PortDevice` acts at plain ports
is a property of its instance is the model's reading (log 14); the counter of draws is the model's (log 25). -/
def Obligations.SpecialPorts : Prop :=
  ∀ (s : State) (w : Width) (port : Byte) (p : Word), s.mem.wf memSize = true → s.ports.wf portCount = true →
    (∀ a ∈ s.deviceCells w p, a ∈ s.params.deviceBytes ∧ 256 ≤ (a - 0xF0000).toNat) ∧
    (∀ (i : Instr) (len : Nat),
      (i = .inAccImm8 w port ∧ len = 2 ∧ p = port.setWidth 16 ∨ i = .inAccDx w ∧ len = 1 ∧ p = s.reg .dx) →
        RunsTo i s len fun t =>
          (p ∉ Config.specialPorts → t.AL = s.portByte p) ∧
            (w = .word → p + 1 ∉ Config.specialPorts → t.AH = s.portByte (p + 1)) ∧
            t.ports = s.ports ∧ t.specialPorts = s.specialPorts ∧
            FrameButDraws s (t.withPortsOf s) (bytesAt w (regAddr w 0) ++ s.deviceCells w p) []) ∧
    (∀ (i : Instr) (len : Nat),
      (i = .outImm8Acc w port ∧ len = 2 ∧ p = port.setWidth 16 ∨ i = .outDxAcc w ∧ len = 1 ∧ p = s.reg .dx) →
        RunsTo i s len fun t =>
          (p ∉ Config.specialPorts → t.portByte p = s.AL) ∧
            (w = .word → p + 1 ∉ Config.specialPorts → t.portByte (p + 1) = s.AH) ∧
            (∀ q, q ∉ Config.specialPorts → q ∉ portsOf w p → t.portByte q = s.portByte q) ∧
            FrameButDraws s (t.withPortsOf s) (s.deviceCells w p) [])

/-- The hooks: `PUTCHAR` passes `AL`; `DISK_WRITE` passes its arguments and changes `AL` alone; `DISK_READ` changes `AL` and at most
`AX` bytes from `ES:BX` on; `GET_RTC` stores 40 bytes there, the DST field 0, and the millisecond counter. Each calls the host once.
For the two that store, the bytes stored to are ordinary memory (48_io_flags_misc R365 to R368). The list of calls is the model's own
(log 17). -/
def Obligations.Hooks : Prop :=
  ∀ s : State,
    JumpsTo .putchar s { s with hostCalls := s.hostCalls ++ [.charOut s.AL] } (s.IP.toNat + 2) ∧
    (RunsTo .diskWrite s 2 fun t =>
      (∃ data, t.hostCalls = s.hostCalls ++
        [.disk (s.reg8 2) .write (lin (s.reg .es) (s.reg .bx)) ((s.reg .bp).toNat * 512) (s.reg .ax) data] ∧
        data.length = (s.reg .ax).toNat ∧
        ∀ k < (s.reg .ax).toNat, data[k]? = some (s.readByte (lin (s.reg .es) (s.reg .bx) + BitVec.ofNat 20 k))) ∧
      Frame s { t with hostCalls := s.hostCalls } [regAddr .byte 0] []) ∧
    (s.mem.wf memSize = true →
      ((∀ a ∈ bytesFrom (lin (s.reg .es) (s.reg .bx)) (s.reg .ax).toNat, cellAt a = .plain) →
        RunsTo .diskRead s 2 fun t =>
          t.hostCalls = s.hostCalls ++
            [.disk (s.reg8 2) .read (lin (s.reg .es) (s.reg .bx)) ((s.reg .bp).toNat * 512) (s.reg .ax) []] ∧
          ∃ k ≤ (s.reg .ax).toNat, Frame s { t with hostCalls := s.hostCalls }
            (bytesFrom (lin (s.reg .es) (s.reg .bx)) k ++ [regAddr .byte 0]) []) ∧
      ((∀ a ∈ bytesFrom (lin (s.reg .es) (s.reg .bx)) 40 ++ bytesFrom s.params.rtcMsAddr s.params.rtcMsLen,
          cellAt a = .plain) →
        RunsTo .getTime s 2 fun t =>
          t.hostCalls = s.hostCalls ++ [.clock] ∧
          (∀ k, 32 ≤ k → k < 36 →
            lin (s.reg .es) (s.reg .bx) + BitVec.ofNat 20 k ∉ bytesFrom s.params.rtcMsAddr s.params.rtcMsLen →
              t.readByte (lin (s.reg .es) (s.reg .bx) + BitVec.ofNat 20 k) = 0) ∧
          Frame s { t with hostCalls := s.hostCalls }
            (bytesFrom (lin (s.reg .es) (s.reg .bx)) 40 ++ bytesFrom s.params.rtcMsAddr s.params.rtcMsLen) []))

/-! ### Reserved encodings -/

/-- A running machine refuses an encoding as reserved exactly when its first two bytes are on the list of reserved encodings; and each of
the reserved instructions is refused in every state (30_encoding R104, 45_shift_rotate R288, 48_io_flags_misc R369, R370, R371). -/
def Obligations.ReservedEncodings : Prop :=
  (∀ s : State, s.runState = .running → ¬(s.reg .cs = 0 ∧ s.IP = 0) →
    (step s = .refused .reservedEncoding ↔
      reservedBytes (s.readByte (lin (s.reg .cs) s.IP)) (s.readByte (lin (s.reg .cs) s.IP + 1)) = true)) ∧
  ∀ (s : State) (sub : Byte) (x16 : Fin 16) (x2 : Fin 2) (m : ModRM) (w : Width) (count : ShiftCount) (mod : Fin 4)
    (reg rm : RegNum),
    ∀ i ∈ [Instr.reserved0F sub, .reserved60to6F x16, .reserved8C m, .reserved8D reg rm, .reserved8E m, .reserved8F m,
        .reservedC0C1 w mod rm, .reservedC4 reg rm, .reservedC5 reg rm, .reservedC6 m, .reservedC7 m, .reservedC8C9 x2,
        .reservedD0toD3 w count mod rm, .reservedD6, .reservedF1, .reservedF6F7 w mod rm, .reservedFE m, .reservedFF3 rm,
        .reservedFF5 rm, .reservedFF7 mod rm],
      exec i s = .refused .reservedEncoding
end

