-- ==== Sys2Proof/Laws/Memory.lean ====
section
/-! SUPPORT. Byte arrays in canonical form: a read after a write, and that a write keeps the form. -/

namespace Sys2Proof.Machine

variable {size lo : Nat} {m : Memory} {a b : Nat} {v : Byte}

theorem Memory.get_of_lt (h : Memory.wfFrom size lo m = true) (ha : a < lo) : Memory.get m a = Config.unlisted := by
  cases m with
  | nil => rfl
  | cons c rest =>
    obtain ⟨k, x⟩ := c
    simp only [Memory.wfFrom, Bool.and_eq_true, decide_eq_true_eq] at h
    have : a < k := by omega
    simp [Memory.get, this]

theorem Memory.wfFrom_mono {lo' : Nat} (h : Memory.wfFrom size lo m = true) (hl : lo' ≤ lo) :
    Memory.wfFrom size lo' m = true := by
  cases m with
  | nil => rfl
  | cons c rest =>
    obtain ⟨k, x⟩ := c
    simp only [Memory.wfFrom, Bool.and_eq_true, decide_eq_true_eq] at h ⊢
    exact ⟨⟨⟨by omega, h.1.1.2⟩, h.1.2⟩, h.2⟩

theorem Memory.get_set_same (h : Memory.wfFrom size lo m = true) : Memory.get (Memory.set m a v) a = v := by
  induction m generalizing lo with
  | nil => by_cases hv : v = Config.unlisted <;> simp [Memory.set, Memory.get, hv]
  | cons c rest ih =>
    obtain ⟨k, x⟩ := c
    have hc := h
    simp only [Memory.wfFrom, Bool.and_eq_true, decide_eq_true_eq] at hc
    rcases Nat.lt_trichotomy a k with hlt | rfl | hgt
    · by_cases hv : v = Config.unlisted <;> simp [Memory.set, Memory.get, hv, hlt]
    · by_cases hv : v = Config.unlisted
      · simpa [Memory.set, hv] using Memory.get_of_lt hc.2 (Nat.lt_succ_self a)
      · simp [Memory.set, Memory.get, hv]
    · have h1 : ¬a < k := by omega
      have h2 : a ≠ k := by omega
      simpa [Memory.set, Memory.get, h1, h2] using ih hc.2

theorem Memory.get_set_other (h : Memory.wfFrom size lo m = true) (hb : b ≠ a) :
    Memory.get (Memory.set m a v) b = Memory.get m b := by
  induction m generalizing lo with
  | nil =>
    by_cases hv : v = Config.unlisted <;> simp [Memory.set, Memory.get, hv, hb]
  | cons c rest ih =>
    obtain ⟨k, x⟩ := c
    have hc := h
    simp only [Memory.wfFrom, Bool.and_eq_true, decide_eq_true_eq] at hc
    rcases Nat.lt_trichotomy a k with hlt | rfl | hgt
    · by_cases hv : v = Config.unlisted
      · simp [Memory.set, hv, hlt]
      · by_cases hba : b < a
        · have : b < k := by omega
          simp [Memory.set, Memory.get, hv, hlt, hba, this]
        · simp [Memory.set, Memory.get, hv, hlt, hba, hb]
    · by_cases hv : v = Config.unlisted
      · by_cases hba : b < a
        · have := Memory.get_of_lt hc.2 (show b < a + 1 by omega)
          simp [Memory.set, Memory.get, hv, hba, this]
        · simp [Memory.set, Memory.get, hv, hba, hb]
      · simp [Memory.set, Memory.get, hv, hb]
    · have h1 : ¬a < k := by omega
      have h2 : a ≠ k := by omega
      simp only [Memory.set, h1, h2, if_false, Memory.get, ih hc.2]

theorem Memory.wfFrom_set (h : Memory.wfFrom size lo m = true) (hl : lo ≤ a) (ha : a < size) :
    Memory.wfFrom size lo (Memory.set m a v) = true := by
  induction m generalizing lo with
  | nil => by_cases hv : v = Config.unlisted <;> simp [Memory.set, Memory.wfFrom, hv, hl, ha]
  | cons c rest ih =>
    obtain ⟨k, x⟩ := c
    have hc := h
    simp only [Memory.wfFrom, Bool.and_eq_true, decide_eq_true_eq] at hc
    rcases Nat.lt_trichotomy a k with hlt | rfl | hgt
    · by_cases hv : v = Config.unlisted
      · simpa [Memory.set, hv, hlt] using h
      · have : a + 1 ≤ k := hlt
        simp [Memory.set, Memory.wfFrom, hv, hlt, hl, ha, hc.1.1.2, hc.1.2, hc.2, this]
    · by_cases hv : v = Config.unlisted
      · simpa [Memory.set, hv] using Memory.wfFrom_mono hc.2 (by omega)
      · simp [Memory.set, Memory.wfFrom, hv, hl, ha, hc.2]
    · have h1 : ¬a < k := by omega
      have h2 : a ≠ k := by omega
      simp [Memory.set, Memory.wfFrom, h1, h2, hc.1.1.1, hc.1.1.2, hc.1.2, ih hc.2 (by omega)]

/-- A write keeps the canonical form. -/
theorem Memory.wf_set (h : Memory.wf size m = true) (ha : a < size) : Memory.wf size (Memory.set m a v) = true :=
  Memory.wfFrom_set h (Nat.zero_le a) ha

theorem Memory.mem_set {c : Host.Cell} (h : c ∈ Memory.set m a v) : c = (a, v) ∨ c ∈ m := by
  induction m with
  | nil => by_cases hv : v = Config.unlisted <;> simp_all [Memory.set]
  | cons d rest ih =>
    obtain ⟨k, x⟩ := d
    simp only [Memory.set] at h
    split at h
    · split at h <;> simp_all
    · split at h
      · split at h
        · exact .inr (List.mem_cons_of_mem _ h)
        · rcases List.mem_cons.1 h with h | h
          · exact .inl h
          · exact .inr (List.mem_cons_of_mem _ h)
      · rcases List.mem_cons.1 h with h | h
        · simp [h]
        · rcases ih h with h | h <;> simp [h]

/-- Equal canonical arrays are those that read the same everywhere. -/
theorem Memory.ext_get {m' : Memory} (h : Memory.wfFrom size lo m = true) (h' : Memory.wfFrom size lo m' = true)
    (hg : ∀ a, Memory.get m a = Memory.get m' a) : m = m' := by
  induction m generalizing lo m' with
  | nil =>
    cases m' with
    | nil => rfl
    | cons c rest =>
      obtain ⟨k, x⟩ := c
      simp only [Memory.wfFrom, Bool.and_eq_true, decide_eq_true_eq] at h'
      have := hg k
      simp [Memory.get] at this
      exact absurd this.symm h'.1.2
  | cons c rest ih =>
    obtain ⟨k, x⟩ := c
    simp only [Memory.wfFrom, Bool.and_eq_true, decide_eq_true_eq] at h
    cases m' with
    | nil =>
      have := hg k
      simp [Memory.get] at this
      exact absurd this h.1.2
    | cons c' rest' =>
      obtain ⟨k', x'⟩ := c'
      simp only [Memory.wfFrom, Bool.and_eq_true, decide_eq_true_eq] at h'
      have hk : k = k' := by
        rcases Nat.lt_trichotomy k k' with hlt | rfl | hgt
        · have := hg k
          simp [Memory.get, hlt] at this
          exact absurd this h.1.2
        · rfl
        · have := hg k'
          simp [Memory.get, hgt] at this
          exact absurd this.symm h'.1.2
      subst hk
      have hx : x = x' := by simpa [Memory.get] using hg k
      subst hx
      congr 1
      refine ih h.2 h'.2 fun a => ?_
      by_cases hlt : a < k + 1
      · rw [Memory.get_of_lt h.2 hlt, Memory.get_of_lt h'.2 hlt]
      · have h1 : ¬a < k := by omega
        have h2 : a ≠ k := by omega
        simpa [Memory.get, h1, h2] using hg a

end Sys2Proof.Machine
end

