-- ==== Sys2Proof/Laws/State.lean ====
section
/-! SUPPORT. One lemma for each field and each update of the state, true by `rfl`. -/

namespace Sys2Proof.Machine

variable (s : State)

/-! ### `setReg` -/

@[simp] theorem State.setReg_regs (r : Reg) (v : Word) : (s.setReg r v).regs = s.regs.set r v := rfl
@[simp] theorem State.setReg_flags (r : Reg) (v : Word) : (s.setReg r v).flags = s.flags := rfl
@[simp] theorem State.setReg_IP (r : Reg) (v : Word) : (s.setReg r v).IP = s.IP := rfl
@[simp] theorem State.setReg_mem (r : Reg) (v : Word) : (s.setReg r v).mem = s.mem := rfl
@[simp] theorem State.setReg_ports (r : Reg) (v : Word) : (s.setReg r v).ports = s.ports := rfl
@[simp] theorem State.setReg_specialPorts (r : Reg) (v : Word) : (s.setReg r v).specialPorts = s.specialPorts := rfl
@[simp] theorem State.setReg_segOvrCnt (r : Reg) (v : Word) : (s.setReg r v).segOvrCnt = s.segOvrCnt := rfl
@[simp] theorem State.setReg_segOvrReg (r : Reg) (v : Word) : (s.setReg r v).segOvrReg = s.segOvrReg := rfl
@[simp] theorem State.setReg_repCnt (r : Reg) (v : Word) : (s.setReg r v).repCnt = s.repCnt := rfl
@[simp] theorem State.setReg_repMode (r : Reg) (v : Word) : (s.setReg r v).repMode = s.repMode := rfl
@[simp] theorem State.setReg_trapShadow (r : Reg) (v : Word) : (s.setReg r v).trapShadow = s.trapShadow := rfl
@[simp] theorem State.setReg_tickPending (r : Reg) (v : Word) : (s.setReg r v).tickPending = s.tickPending := rfl
@[simp] theorem State.setReg_tickCounter (r : Reg) (v : Word) : (s.setReg r v).tickCounter = s.tickCounter := rfl
@[simp] theorem State.setReg_runState (r : Reg) (v : Word) : (s.setReg r v).runState = s.runState := rfl
@[simp] theorem State.setReg_portDevice (r : Reg) (v : Word) : (s.setReg r v).portDevice = s.portDevice := rfl
@[simp] theorem State.setReg_params (r : Reg) (v : Word) : (s.setReg r v).params = s.params := rfl
@[simp] theorem State.setReg_draws (r : Reg) (v : Word) : (s.setReg r v).draws = s.draws := rfl
@[simp] theorem State.setReg_hostCalls (r : Reg) (v : Word) : (s.setReg r v).hostCalls = s.hostCalls := rfl

/-! ### `setFlags` -/

@[simp] theorem State.setFlags_regs (f : Flags) : (s.setFlags f).regs = s.regs := rfl
@[simp] theorem State.setFlags_flags (f : Flags) : (s.setFlags f).flags = f := rfl
@[simp] theorem State.setFlags_IP (f : Flags) : (s.setFlags f).IP = s.IP := rfl
@[simp] theorem State.setFlags_mem (f : Flags) : (s.setFlags f).mem = s.mem := rfl
@[simp] theorem State.setFlags_ports (f : Flags) : (s.setFlags f).ports = s.ports := rfl
@[simp] theorem State.setFlags_specialPorts (f : Flags) : (s.setFlags f).specialPorts = s.specialPorts := rfl
@[simp] theorem State.setFlags_segOvrCnt (f : Flags) : (s.setFlags f).segOvrCnt = s.segOvrCnt := rfl
@[simp] theorem State.setFlags_segOvrReg (f : Flags) : (s.setFlags f).segOvrReg = s.segOvrReg := rfl
@[simp] theorem State.setFlags_repCnt (f : Flags) : (s.setFlags f).repCnt = s.repCnt := rfl
@[simp] theorem State.setFlags_repMode (f : Flags) : (s.setFlags f).repMode = s.repMode := rfl
@[simp] theorem State.setFlags_trapShadow (f : Flags) : (s.setFlags f).trapShadow = s.trapShadow := rfl
@[simp] theorem State.setFlags_tickPending (f : Flags) : (s.setFlags f).tickPending = s.tickPending := rfl
@[simp] theorem State.setFlags_tickCounter (f : Flags) : (s.setFlags f).tickCounter = s.tickCounter := rfl
@[simp] theorem State.setFlags_runState (f : Flags) : (s.setFlags f).runState = s.runState := rfl
@[simp] theorem State.setFlags_portDevice (f : Flags) : (s.setFlags f).portDevice = s.portDevice := rfl
@[simp] theorem State.setFlags_params (f : Flags) : (s.setFlags f).params = s.params := rfl
@[simp] theorem State.setFlags_draws (f : Flags) : (s.setFlags f).draws = s.draws := rfl
@[simp] theorem State.setFlags_hostCalls (f : Flags) : (s.setFlags f).hostCalls = s.hostCalls := rfl
@[simp] theorem State.reg_setFlags (f : Flags) (q : Reg) : (s.setFlags f).reg q = s.reg q := rfl

/-! ### `nextDraw` -/

@[simp] theorem State.nextDraw_regs : (s.nextDraw).regs = s.regs := rfl
@[simp] theorem State.nextDraw_flags : (s.nextDraw).flags = s.flags := rfl
@[simp] theorem State.nextDraw_IP : (s.nextDraw).IP = s.IP := rfl
@[simp] theorem State.nextDraw_mem : (s.nextDraw).mem = s.mem := rfl
@[simp] theorem State.nextDraw_ports : (s.nextDraw).ports = s.ports := rfl
@[simp] theorem State.nextDraw_specialPorts : (s.nextDraw).specialPorts = s.specialPorts := rfl
@[simp] theorem State.nextDraw_segOvrCnt : (s.nextDraw).segOvrCnt = s.segOvrCnt := rfl
@[simp] theorem State.nextDraw_segOvrReg : (s.nextDraw).segOvrReg = s.segOvrReg := rfl
@[simp] theorem State.nextDraw_repCnt : (s.nextDraw).repCnt = s.repCnt := rfl
@[simp] theorem State.nextDraw_repMode : (s.nextDraw).repMode = s.repMode := rfl
@[simp] theorem State.nextDraw_trapShadow : (s.nextDraw).trapShadow = s.trapShadow := rfl
@[simp] theorem State.nextDraw_tickPending : (s.nextDraw).tickPending = s.tickPending := rfl
@[simp] theorem State.nextDraw_tickCounter : (s.nextDraw).tickCounter = s.tickCounter := rfl
@[simp] theorem State.nextDraw_runState : (s.nextDraw).runState = s.runState := rfl
@[simp] theorem State.nextDraw_portDevice : (s.nextDraw).portDevice = s.portDevice := rfl
@[simp] theorem State.nextDraw_params : (s.nextDraw).params = s.params := rfl
@[simp] theorem State.nextDraw_draws : (s.nextDraw).draws = s.draws + 1 := rfl
@[simp] theorem State.nextDraw_hostCalls : (s.nextDraw).hostCalls = s.hostCalls := rfl
@[simp] theorem State.reg_nextDraw (q : Reg) : (s.nextDraw).reg q = s.reg q := rfl

/-! ### `setPort` -/

@[simp] theorem State.setPort_regs (p : Word) (v : Byte) : (s.setPort p v).regs = s.regs := rfl
@[simp] theorem State.setPort_flags (p : Word) (v : Byte) : (s.setPort p v).flags = s.flags := rfl
@[simp] theorem State.setPort_IP (p : Word) (v : Byte) : (s.setPort p v).IP = s.IP := rfl
@[simp] theorem State.setPort_mem (p : Word) (v : Byte) : (s.setPort p v).mem = s.mem := rfl
@[simp] theorem State.setPort_ports (p : Word) (v : Byte) : (s.setPort p v).ports = if isSpecialPort p then s.ports else s.ports.set p.toNat v := rfl
@[simp] theorem State.setPort_specialPorts (p : Word) (v : Byte) : (s.setPort p v).specialPorts = if isSpecialPort p then s.specialPorts.set (Config.specialPorts.idxOf p) v else s.specialPorts := rfl
@[simp] theorem State.setPort_segOvrCnt (p : Word) (v : Byte) : (s.setPort p v).segOvrCnt = s.segOvrCnt := rfl
@[simp] theorem State.setPort_segOvrReg (p : Word) (v : Byte) : (s.setPort p v).segOvrReg = s.segOvrReg := rfl
@[simp] theorem State.setPort_repCnt (p : Word) (v : Byte) : (s.setPort p v).repCnt = s.repCnt := rfl
@[simp] theorem State.setPort_repMode (p : Word) (v : Byte) : (s.setPort p v).repMode = s.repMode := rfl
@[simp] theorem State.setPort_trapShadow (p : Word) (v : Byte) : (s.setPort p v).trapShadow = s.trapShadow := rfl
@[simp] theorem State.setPort_tickPending (p : Word) (v : Byte) : (s.setPort p v).tickPending = s.tickPending := rfl
@[simp] theorem State.setPort_tickCounter (p : Word) (v : Byte) : (s.setPort p v).tickCounter = s.tickCounter := rfl
@[simp] theorem State.setPort_runState (p : Word) (v : Byte) : (s.setPort p v).runState = s.runState := rfl
@[simp] theorem State.setPort_portDevice (p : Word) (v : Byte) : (s.setPort p v).portDevice = s.portDevice := rfl
@[simp] theorem State.setPort_params (p : Word) (v : Byte) : (s.setPort p v).params = s.params := rfl
@[simp] theorem State.setPort_draws (p : Word) (v : Byte) : (s.setPort p v).draws = s.draws := rfl
@[simp] theorem State.setPort_hostCalls (p : Word) (v : Byte) : (s.setPort p v).hostCalls = s.hostCalls := rfl
@[simp] theorem State.reg_setPort (p : Word) (v : Byte) (q : Reg) : (s.setPort p v).reg q = s.reg q := rfl

/-! ### `deviceCalled` -/

@[simp] theorem State.deviceCalled_regs (w : Width) (p : Word) (v : Option Word) : (s.deviceCalled w p v).regs = s.regs := rfl
@[simp] theorem State.deviceCalled_flags (w : Width) (p : Word) (v : Option Word) : (s.deviceCalled w p v).flags = s.flags := rfl
@[simp] theorem State.deviceCalled_IP (w : Width) (p : Word) (v : Option Word) : (s.deviceCalled w p v).IP = s.IP := rfl
@[simp] theorem State.deviceCalled_mem (w : Width) (p : Word) (v : Option Word) : (s.deviceCalled w p v).mem = s.deviceMem w p v := rfl
@[simp] theorem State.deviceCalled_ports (w : Width) (p : Word) (v : Option Word) : (s.deviceCalled w p v).ports = s.ports := rfl
@[simp] theorem State.deviceCalled_specialPorts (w : Width) (p : Word) (v : Option Word) : (s.deviceCalled w p v).specialPorts = s.specialPorts := rfl
@[simp] theorem State.deviceCalled_segOvrCnt (w : Width) (p : Word) (v : Option Word) : (s.deviceCalled w p v).segOvrCnt = s.segOvrCnt := rfl
@[simp] theorem State.deviceCalled_segOvrReg (w : Width) (p : Word) (v : Option Word) : (s.deviceCalled w p v).segOvrReg = s.segOvrReg := rfl
@[simp] theorem State.deviceCalled_repCnt (w : Width) (p : Word) (v : Option Word) : (s.deviceCalled w p v).repCnt = s.repCnt := rfl
@[simp] theorem State.deviceCalled_repMode (w : Width) (p : Word) (v : Option Word) : (s.deviceCalled w p v).repMode = s.repMode := rfl
@[simp] theorem State.deviceCalled_trapShadow (w : Width) (p : Word) (v : Option Word) : (s.deviceCalled w p v).trapShadow = s.trapShadow := rfl
@[simp] theorem State.deviceCalled_tickPending (w : Width) (p : Word) (v : Option Word) : (s.deviceCalled w p v).tickPending = s.tickPending := rfl
@[simp] theorem State.deviceCalled_tickCounter (w : Width) (p : Word) (v : Option Word) : (s.deviceCalled w p v).tickCounter = s.tickCounter := rfl
@[simp] theorem State.deviceCalled_runState (w : Width) (p : Word) (v : Option Word) : (s.deviceCalled w p v).runState = s.runState := rfl
@[simp] theorem State.deviceCalled_portDevice (w : Width) (p : Word) (v : Option Word) : (s.deviceCalled w p v).portDevice = if s.deviceActsAt w p then Config.deviceNext s.draws s.portDevice p (Width.isWord w) v else s.portDevice := rfl
@[simp] theorem State.deviceCalled_params (w : Width) (p : Word) (v : Option Word) : (s.deviceCalled w p v).params = s.params := rfl
@[simp] theorem State.deviceCalled_draws (w : Width) (p : Word) (v : Option Word) : (s.deviceCalled w p v).draws = s.draws + 1 := rfl
@[simp] theorem State.deviceCalled_hostCalls (w : Width) (p : Word) (v : Option Word) : (s.deviceCalled w p v).hostCalls = s.hostCalls := rfl
@[simp] theorem State.reg_deviceCalled (w : Width) (p : Word) (v : Option Word) (q : Reg) : (s.deviceCalled w p v).reg q = s.reg q := rfl

/-! ### `bootContext` -/

@[simp] theorem State.bootContext_regs : (s.bootContext).regs = ((s.regs.set .cs 0xF000).set .ax 0).set .dx (withByte false 0x80 (s.reg .dx)) := rfl
@[simp] theorem State.bootContext_flags : (s.bootContext).flags = { s.flags with TF := false } := rfl
@[simp] theorem State.bootContext_IP : (s.bootContext).IP = 0x0100 := rfl
@[simp] theorem State.bootContext_mem : (s.bootContext).mem = s.mem := rfl
@[simp] theorem State.bootContext_ports : (s.bootContext).ports = s.ports := rfl
@[simp] theorem State.bootContext_specialPorts : (s.bootContext).specialPorts = s.specialPorts := rfl
@[simp] theorem State.bootContext_segOvrCnt : (s.bootContext).segOvrCnt = 0 := rfl
@[simp] theorem State.bootContext_segOvrReg : (s.bootContext).segOvrReg = s.segOvrReg := rfl
@[simp] theorem State.bootContext_repCnt : (s.bootContext).repCnt = 0 := rfl
@[simp] theorem State.bootContext_repMode : (s.bootContext).repMode = s.repMode := rfl
@[simp] theorem State.bootContext_trapShadow : (s.bootContext).trapShadow = false := rfl
@[simp] theorem State.bootContext_tickPending : (s.bootContext).tickPending = false := rfl
@[simp] theorem State.bootContext_tickCounter : (s.bootContext).tickCounter = 0 := rfl
@[simp] theorem State.bootContext_runState : (s.bootContext).runState = .running := rfl
@[simp] theorem State.bootContext_portDevice : (s.bootContext).portDevice = s.portDevice := rfl
@[simp] theorem State.bootContext_params : (s.bootContext).params = s.params := rfl
@[simp] theorem State.bootContext_draws : (s.bootContext).draws = s.draws := rfl
@[simp] theorem State.bootContext_hostCalls : (s.bootContext).hostCalls = s.hostCalls := rfl

/-! ### `callHook` -/

@[simp] theorem State.callHook_regs (c : HostCall) : (s.callHook c).regs = s.regs := rfl
@[simp] theorem State.callHook_flags (c : HostCall) : (s.callHook c).flags = s.flags := rfl
@[simp] theorem State.callHook_IP (c : HostCall) : (s.callHook c).IP = s.IP := rfl
@[simp] theorem State.callHook_mem (c : HostCall) : (s.callHook c).mem = s.mem := rfl
@[simp] theorem State.callHook_ports (c : HostCall) : (s.callHook c).ports = s.ports := rfl
@[simp] theorem State.callHook_specialPorts (c : HostCall) : (s.callHook c).specialPorts = s.specialPorts := rfl
@[simp] theorem State.callHook_segOvrCnt (c : HostCall) : (s.callHook c).segOvrCnt = s.segOvrCnt := rfl
@[simp] theorem State.callHook_segOvrReg (c : HostCall) : (s.callHook c).segOvrReg = s.segOvrReg := rfl
@[simp] theorem State.callHook_repCnt (c : HostCall) : (s.callHook c).repCnt = s.repCnt := rfl
@[simp] theorem State.callHook_repMode (c : HostCall) : (s.callHook c).repMode = s.repMode := rfl
@[simp] theorem State.callHook_trapShadow (c : HostCall) : (s.callHook c).trapShadow = s.trapShadow := rfl
@[simp] theorem State.callHook_tickPending (c : HostCall) : (s.callHook c).tickPending = s.tickPending := rfl
@[simp] theorem State.callHook_tickCounter (c : HostCall) : (s.callHook c).tickCounter = s.tickCounter := rfl
@[simp] theorem State.callHook_runState (c : HostCall) : (s.callHook c).runState = s.runState := rfl
@[simp] theorem State.callHook_portDevice (c : HostCall) : (s.callHook c).portDevice = s.portDevice := rfl
@[simp] theorem State.callHook_params (c : HostCall) : (s.callHook c).params = s.params := rfl
@[simp] theorem State.callHook_draws (c : HostCall) : (s.callHook c).draws = s.draws := rfl
@[simp] theorem State.callHook_hostCalls (c : HostCall) : (s.callHook c).hostCalls = s.hostCalls ++ [c] := rfl
@[simp] theorem State.reg_callHook (c : HostCall) (q : Reg) : (s.callHook c).reg q = s.reg q := rfl

/-! ### Registers and flags by name -/

theorem Regs.get_set (g : Regs) (r q : Reg) (v : Word) : (g.set r v).get q = if q = r then v else g.get q := by
  cases r <;> cases q <;> rfl

@[simp] theorem Regs.get_set_same (g : Regs) (r : Reg) (v : Word) : (g.set r v).get r = v := by
  simp [Regs.get_set]

theorem Regs.get_set_other (g : Regs) {r q : Reg} (v : Word) (h : q ≠ r) : (g.set r v).get q = g.get q := by
  simp [Regs.get_set, h]

@[simp] theorem Regs.set_SCRATCH (g : Regs) (r : Reg) (v : Word) : (g.set r v).SCRATCH = g.SCRATCH := by
  cases r <;> rfl

@[simp] theorem Regs.set_get (g : Regs) (r : Reg) : g.set r (g.get r) = g := by
  cases r <;> rfl

@[simp] theorem Regs.set_set (g : Regs) (r : Reg) (u v : Word) : (g.set r u).set r v = g.set r v := by
  cases r <;> rfl

theorem Regs.ext_get {g h : Regs} (hr : ∀ r, g.get r = h.get r) (hs : g.SCRATCH = h.SCRATCH) : g = h := by
  obtain ⟨⟩ := g
  obtain ⟨⟩ := h
  have := hr .ax; have := hr .cx; have := hr .dx; have := hr .bx; have := hr .sp; have := hr .bp
  have := hr .si; have := hr .di; have := hr .es; have := hr .cs; have := hr .ss; have := hr .ds
  simp_all [Regs.get]

theorem Flags.get_set (f : Flags) (x y : Flag) (b : Bool) : (f.set x b).get y = if y = x then b else f.get y := by
  cases x <;> cases y <;> rfl

@[simp] theorem Flags.get_set_same (f : Flags) (x : Flag) (b : Bool) : (f.set x b).get x = b := by
  simp [Flags.get_set]

theorem Flags.ext_get {f g : Flags} (h : ∀ x, f.get x = g.get x) : f = g := by
  obtain ⟨⟩ := f
  obtain ⟨⟩ := g
  have := h .cf; have := h .pf; have := h .af; have := h .zf; have := h .sf
  have := h .tf; have := h .intf; have := h .df; have := h .of
  simp_all [Flags.get]

theorem State.reg_setReg (r q : Reg) (v : Word) : (s.setReg r v).reg q = if q = r then v else s.reg q :=
  Regs.get_set s.regs r q v

@[simp] theorem State.reg_setReg_same (r : Reg) (v : Word) : (s.setReg r v).reg r = v := by
  simp [State.reg_setReg]

theorem State.reg_setReg_other {r q : Reg} (v : Word) (h : q ≠ r) : (s.setReg r v).reg q = s.reg q := by
  simp [State.reg_setReg, h]

@[simp] theorem State.setReg_setReg (r : Reg) (u v : Word) : (s.setReg r u).setReg r v = s.setReg r v := by
  simp [State.setReg]

@[simp] theorem State.setReg_reg (r : Reg) : s.setReg r (s.reg r) = s := by
  simp [State.setReg, State.reg]

@[simp] theorem State.setFlags_setFlags (f g : Flags) : (s.setFlags f).setFlags g = s.setFlags g := rfl

@[simp] theorem State.setFlags_flags_self : s.setFlags s.flags = s := rfl

theorem State.setReg_setFlags (r : Reg) (v : Word) (f : Flags) : (s.setFlags f).setReg r v = (s.setReg r v).setFlags f := rfl

end Sys2Proof.Machine
end

