-- ==== Sys2Proof/Laws/Ops.lean ====
section
/-! SUPPORT. What the shared operations do, said once for each: sequencing, the register page, stores, `SetIP`, frames. -/

namespace Sys2Proof.Machine

/-! ### Sequencing -/

@[simp] theorem andThen_next (s : State) (k : State → Result) : andThen (.next s) k = k s := rfl

@[simp] theorem andThen_fault (f : Fault) (k : State → Result) : andThen (.fault f) k = .fault f := rfl

@[simp] theorem andThen_refused (x : Refusal) (k : State → Result) : andThen (.refused x) k = .refused x := rfl

theorem andThen_eq_next {r : Result} {k : State → Result} {t : State} :
    andThen r k = .next t ↔ ∃ s, r = .next s ∧ k s = .next t := by
  cases r <;> simp [andThen]

theorem andThen_assoc (r : Result) (k l : State → Result) :
    andThen (andThen r k) l = andThen r fun s => andThen (k s) l := by
  cases r <;> rfl

/-! ### Bytes of a word -/

theorem getLsbD_byteOf (h : Bool) (w : Word) (i : Nat) :
    (byteOf h w).getLsbD i = (decide (i < 8) && w.getLsbD (8 * h.toNat + i)) := by
  cases h <;> simp [byteOf, BitVec.getLsbD_extractLsb', BitVec.getLsbD_setWidth]

theorem getLsbD_join (a b : Byte) (i : Nat) :
    (a ++ b : Word).getLsbD i = if i < 8 then b.getLsbD i else a.getLsbD (i - 8) :=
  BitVec.getLsbD_append

@[simp] theorem byteOf_true_append (a b : Byte) : byteOf true (a ++ b) = a := by
  refine BitVec.eq_of_getLsbD_eq fun i hi => ?_
  rw [getLsbD_byteOf, getLsbD_join, if_neg (by simp), decide_eq_true hi]
  simp

@[simp] theorem byteOf_false_append (a b : Byte) : byteOf false (a ++ b) = b := by
  refine BitVec.eq_of_getLsbD_eq fun i hi => ?_
  rw [getLsbD_byteOf, getLsbD_join, if_pos (by simpa using hi), decide_eq_true hi]
  simp

@[simp] theorem byteOf_append_byteOf (w : Word) : byteOf true w ++ byteOf false w = w := by
  refine BitVec.eq_of_getLsbD_eq fun i hi => ?_
  have hi' : i < 16 := hi
  rw [getLsbD_join, getLsbD_byteOf, getLsbD_byteOf]
  split
  · next h => rw [decide_eq_true h]; simp
  · next h =>
    rw [decide_eq_true (show i - 8 < 8 by omega), show 8 * true.toNat + (i - 8) = i by simp; omega]
    simp

@[simp] theorem byteOf_withByte (h : Bool) (b : Byte) (w : Word) : byteOf h (withByte h b w) = b := by
  cases h
  · exact byteOf_false_append _ _
  · exact byteOf_true_append _ _

@[simp] theorem byteOf_withByte_low (b : Byte) (w : Word) : byteOf false (withByte true b w) = byteOf false w :=
  byteOf_false_append _ _

@[simp] theorem byteOf_withByte_high (b : Byte) (w : Word) : byteOf true (withByte false b w) = byteOf true w :=
  byteOf_true_append _ _

/-! ### The layout of the register page -/

theorem cellAt_offset (o : Nat) (h : o < 50) : cellAt (Config.regsBase + BitVec.ofNat 20 o) = pageLayout.getD o .plain := by
  have h2 : (Config.regsBase + BitVec.ofNat 20 o - Config.regsBase).toNat = o := by
    rw [BitVec.add_comm, BitVec.add_sub_cancel, BitVec.toNat_ofNat]
    exact Nat.mod_eq_of_lt (by omega)
  unfold cellAt
  rw [h2, if_pos h]

theorem exists_offset {a : Addr} (h : cellAt a ≠ .plain) :
    ∃ o, o < 50 ∧ a = Config.regsBase + BitVec.ofNat 20 o ∧ cellAt a = pageLayout.getD o .plain := by
  by_cases ho : (a - Config.regsBase).toNat < 50
  · refine ⟨(a - Config.regsBase).toNat, ho, ?_, if_pos ho⟩
    rw [BitVec.ofNat_toNat, BitVec.setWidth_eq, BitVec.add_comm, BitVec.sub_add_cancel]
  · exact absurd (if_neg ho) h

theorem pageLayout_reg : ∀ o < 50, ∀ r h, pageLayout.getD o .plain = .reg r h → o = 2 * r.slot + h.toNat := by
  intro o ho r h
  revert ho o
  cases r <;> cases h <;> decide

theorem pageLayout_flag : ∀ o < 50, ∀ x, pageLayout.getD o .plain = .flag x →
    Config.regsBase + BitVec.ofNat 20 o = flagAddr x := by
  intro o ho x
  revert ho o
  cases x <;> decide

theorem pageLayout_scratch : ∀ o < 50, ∀ h, pageLayout.getD o .plain = .scratch h → o = 26 + h.toNat := by
  intro o ho h
  revert ho o
  cases h <;> decide

/-- Which address holds a byte of a register. -/
theorem cellAt_eq_reg {a : Addr} {r : Reg} {h : Bool} : cellAt a = .reg r h ↔ a = r.addr + BitVec.ofNat 20 h.toNat := by
  constructor
  · intro e
    obtain ⟨o, ho, rfl, e2⟩ := exists_offset (a := a) (by simp [e])
    rw [pageLayout_reg o ho r h (e2.symm.trans e), Reg.addr, BitVec.add_assoc, ← BitVec.ofNat_add]
  · rintro rfl
    cases r <;> cases h <;> decide

theorem cellAt_reg_low (r : Reg) : cellAt r.addr = .reg r false := by cases r <;> decide

theorem cellAt_reg_high (r : Reg) : cellAt (r.addr + 1#20) = .reg r true := by cases r <;> decide

/-- Which address holds a flag. -/
theorem cellAt_eq_flag {a : Addr} {x : Flag} : cellAt a = .flag x ↔ a = flagAddr x := by
  constructor
  · intro e
    obtain ⟨o, ho, rfl, e2⟩ := exists_offset (a := a) (by simp [e])
    exact pageLayout_flag o ho x (e2.symm.trans e)
  · rintro rfl
    cases x <;> decide

theorem cellAt_flagAddr (x : Flag) : cellAt (flagAddr x) = .flag x := cellAt_eq_flag.2 rfl

/-- Two addresses of one byte of a register, of one flag, or of one byte of `SCRATCH` are the same. -/
theorem cellAt_inj {a b : Addr} (h : cellAt a = cellAt b) (hp : cellAt a ≠ .plain) (hz : cellAt a ≠ .zero) : a = b := by
  cases e : cellAt a with
  | reg r x => exact (cellAt_eq_reg.1 e).trans (cellAt_eq_reg.1 (h ▸ e)).symm
  | zero => exact absurd e hz
  | scratch x =>
    obtain ⟨o, ho, rfl, e1⟩ := exists_offset (a := a) hp
    obtain ⟨o', ho', rfl, e2⟩ := exists_offset (a := b) (h ▸ hp)
    rw [pageLayout_scratch o ho x (e1.symm.trans e), pageLayout_scratch o' ho' x (e2.symm.trans (h ▸ e))]
  | flag x => exact (cellAt_eq_flag.1 e).trans (cellAt_eq_flag.1 (h ▸ e)).symm
  | plain => exact absurd e hp

/-! ### One byte -/

section Bytes

variable (s : State) (a : Addr) (v : Byte)

/-- A store of a byte changes nothing but registers, flags and memory. -/
theorem State.sameContext_putByte : SameContext s (s.putByte a v) := by
  unfold State.putByte
  split <;> simp [SameContext]

@[simp] theorem State.putByte_IP : (s.putByte a v).IP = s.IP := by
  unfold State.putByte
  split <;> rfl

theorem State.readByte_putByte_of_ne {s : State} {a b : Addr} (v : Byte) (hm : cellAt a = .plain → s.mem.wf memSize = true)
    (hb : b ≠ a) : (s.putByte a v).readByte b = s.readByte b := by
  unfold State.putByte
  cases ea : cellAt a with
  | reg r h =>
    cases eb : cellAt b with
    | reg q k =>
      simp only [State.readByte, eb, State.reg_setReg]
      by_cases hq : q = r
      · subst hq
        have : k ≠ h := by
          rintro rfl
          exact hb (cellAt_inj (eb.trans ea.symm) (by simp [eb]) (by simp [eb]))
        cases k <;> cases h <;> simp_all
      · simp [hq]
    | zero => simp [State.readByte, eb]
    | scratch k => simp [State.readByte, eb]
    | flag x => simp [State.readByte, eb]; rfl
    | plain => simp [State.readByte, eb]
  | zero => rfl
  | scratch h =>
    cases eb : cellAt b with
    | reg q k =>
      have : Regs.get { s.regs with SCRATCH := withByte h v s.regs.SCRATCH } q = s.regs.get q := by cases q <;> rfl
      simp [State.readByte, eb, State.reg, this]
    | zero => simp [State.readByte, eb]
    | scratch k =>
      have : k ≠ h := by
        rintro rfl
        exact hb (cellAt_inj (eb.trans ea.symm) (by simp [eb]) (by simp [eb]))
      cases k <;> cases h <;> simp_all [State.readByte]
    | flag x => simp [State.readByte, eb]
    | plain => simp [State.readByte, eb]
  | flag x =>
    cases eb : cellAt b with
    | flag y =>
      have : y ≠ x := by
        rintro rfl
        exact hb (cellAt_inj (eb.trans ea.symm) (by simp [eb]) (by simp [eb]))
      simp [State.readByte, eb, Flags.get_set, this]
    | reg q k => simp [State.readByte, eb]
    | zero => simp [State.readByte, eb]
    | scratch k => simp [State.readByte, eb]
    | plain => simp [State.readByte, eb]
  | plain =>
    cases eb : cellAt b with
    | plain =>
      have hne : b.toNat ≠ a.toNat := fun h => hb (BitVec.eq_of_toNat_eq h)
      simp [State.readByte, eb, Memory.get_set_other (lo := 0) (hm ea) hne]
    | reg q k => simp [State.readByte, eb]; rfl
    | zero => simp [State.readByte, eb]
    | scratch k => simp [State.readByte, eb]
    | flag y => simp [State.readByte, eb]

theorem State.readByte_putByte_other {s : State} {a b : Addr} (v : Byte) (hm : s.mem.wf memSize = true) (hb : b ≠ a) :
    (s.putByte a v).readByte b = s.readByte b :=
  State.readByte_putByte_of_ne v (fun _ => hm) hb

theorem State.readByte_putByte_same {s : State} {a : Addr} {v : Byte} (hm : s.mem.wf memSize = true)
    (hv : canStoreByte a v = true) (hs : ∀ h, cellAt a ≠ .scratch h) : (s.putByte a v).readByte a = v := by
  unfold State.putByte
  cases ea : cellAt a with
  | reg r h => simp [State.readByte, ea]
  | zero =>
    simp only [canStoreByte, ea, beq_iff_eq] at hv
    simp [State.readByte, ea, hv]
  | scratch h => exact absurd ea (hs h)
  | flag x =>
    simp only [canStoreByte, ea, Bool.or_eq_true, beq_iff_eq] at hv
    rcases hv with rfl | rfl <;> simp [State.readByte, ea]
  | plain => simp [State.readByte, ea, Memory.get_set_same (lo := 0) hm]

theorem State.putByte_mem_wf {s : State} {a : Addr} {v : Byte} (hm : s.mem.wf memSize = true) :
    (s.putByte a v).mem.wf memSize = true := by
  unfold State.putByte
  split <;> try exact hm
  exact Memory.wf_set hm a.isLt

theorem State.reg_putByte_other {s : State} {a : Addr} {v : Byte} {r : Reg} (h0 : r.addr ≠ a) (h1 : r.addr + 1#20 ≠ a) :
    (s.putByte a v).reg r = s.reg r := by
  unfold State.putByte
  cases ea : cellAt a with
  | reg q h =>
    have : r ≠ q := by
      rintro rfl
      have := cellAt_eq_reg.1 ea
      cases h
      · exact h0 (by simpa using this.symm)
      · exact h1 (by simpa using this.symm)
    exact State.reg_setReg_other _ _ this
  | zero => rfl
  | scratch h => cases r <;> rfl
  | flag x => rfl
  | plain => rfl

theorem State.flag_putByte_other {s : State} {a : Addr} {v : Byte} {x : Flag} (h : flagAddr x ≠ a) :
    (s.putByte a v).flags.get x = s.flags.get x := by
  unfold State.putByte
  cases ea : cellAt a with
  | flag y =>
    have : x ≠ y := by
      rintro rfl
      exact h (cellAt_eq_flag.1 ea).symm
    simp [Flags.get_set, this]
  | reg q h => rfl
  | zero => rfl
  | scratch h => rfl
  | plain => rfl

/-- A store to ordinary memory changes `mem` only. -/
theorem State.putByte_plain {s : State} {a : Addr} {v : Byte} (h : cellAt a = .plain) :
    s.putByte a v = { s with mem := s.mem.set a.toNat v } := by
  simp [State.putByte, h]

theorem canStoreByte_plain {a : Addr} {v : Byte} (h : cellAt a = .plain) : canStoreByte a v = true := by
  simp [canStoreByte, h]

end Bytes

/-! ### Frames -/

theorem SameContext.refl (s : State) : SameContext s s := by simp [SameContext]

theorem SameContext.trans {s t u : State} (h : SameContext s t) (k : SameContext t u) : SameContext s u := by
  simp only [SameContext] at *
  obtain ⟨h1, h2, h3, h4, h5, h6, h7, h8, h9, h10, h11, h12, h13, h14⟩ := h
  obtain ⟨k1, k2, k3, k4, k5, k6, k7, k8, k9, k10, k11, k12, k13, k14⟩ := k
  exact ⟨k1.trans h1, k2.trans h2, k3.trans h3, k4.trans h4, k5.trans h5, k6.trans h6, k7.trans h7, k8.trans h8,
    k9.trans h9, k10.trans h10, k11.trans h11, k12.trans h12, k13.trans h13, k14.trans h14⟩

/-- What a byte reads as depends on the registers, the flags, memory and, for `SCRATCH`, the draw. -/
theorem readByte_congr {s t : State} {a : Addr} (hr : ∀ r h, cellAt a = .reg r h → t.reg r = s.reg r)
    (hf : ∀ x, cellAt a = .flag x → t.flags.get x = s.flags.get x) (hs : t.regs.SCRATCH = s.regs.SCRATCH)
    (hd : t.draws = s.draws) (hm : t.mem = s.mem) : t.readByte a = s.readByte a := by
  cases e : cellAt a with
  | reg r h => simp [State.readByte, e, hr r h e]
  | zero => simp [State.readByte, e]
  | scratch h => simp [State.readByte, e, hs, hd]
  | flag x => simp [State.readByte, e, hf x e]
  | plain => simp [State.readByte, e, hm]

theorem Frame.refl (s : State) : Frame s s [] [] :=
  ⟨fun _ _ _ => rfl, fun _ _ _ => rfl, fun _ _ _ => rfl, SameContext.refl s⟩

theorem Frame.trans {s t u : State} {A B : List Addr} {f g : List Flag} (h : Frame s t A f) (k : Frame t u B g) :
    Frame s u (A ++ B) (f ++ g) := by
  obtain ⟨h1, h2, h3, h4⟩ := h
  obtain ⟨k1, k2, k3, k4⟩ := k
  refine ⟨fun a ha hf => ?_, fun r h0 h1' => ?_, fun x hx ha => ?_, h4.trans k4⟩
  · simp only [List.map_append, List.mem_append, not_or] at ha hf
    rw [k1 a ha.2 hf.2, h1 a ha.1 hf.1]
  · simp only [List.mem_append, not_or] at h0 h1'
    rw [k2 r h0.2 h1'.2, h2 r h0.1 h1'.1]
  · simp only [List.mem_append, not_or] at hx ha
    rw [k3 x hx.2 ha.2, h3 x hx.1 ha.1]

theorem Frame.mono {s t : State} {A B : List Addr} {f g : List Flag} (h : Frame s t A f) (hA : A ⊆ B) (hf : f ⊆ g) :
    Frame s t B g := by
  obtain ⟨h1, h2, h3, h4⟩ := h
  refine ⟨fun a ha hx => h1 a (fun hh => ha (hA hh)) (fun hh => hx ?_), fun r h0 h1' => h2 r (fun hh => h0 (hA hh))
    (fun hh => h1' (hA hh)), fun x hx ha => h3 x (fun hh => hx (hf hh)) (fun hh => ha (hA hh)), h4⟩
  obtain ⟨y, hy, rfl⟩ := List.mem_map.1 hh
  exact List.mem_map.2 ⟨y, hf hy, rfl⟩

theorem Frame.withIP {s t : State} {A : List Addr} {f : List Flag} (h : Frame s t A f) (v : Word) :
    Frame s { t with IP := v } A f := h

theorem frame_IP (s : State) (v : Word) : Frame s { s with IP := v } [] [] := (Frame.refl s).withIP v

theorem frame_setFlags {s : State} {f : Flags} {fl : List Flag} (h : ∀ x, x ∉ fl → f.get x = s.flags.get x) :
    Frame s (s.setFlags f) [] fl := by
  refine ⟨fun a _ ha => ?_, fun _ _ _ => rfl, fun x hx _ => h x hx, by simp [SameContext]⟩
  refine readByte_congr (fun _ _ _ => rfl) (fun x e => ?_) rfl rfl rfl
  refine h x fun hx => ha ?_
  rw [cellAt_eq_flag.1 e]
  exact List.mem_map.2 ⟨x, hx, rfl⟩

theorem frame_putByte_of {s : State} (a : Addr) (v : Byte) (hm : cellAt a = .plain → s.mem.wf memSize = true) :
    Frame s (s.putByte a v) [a] [] := by
  refine ⟨fun b hb _ => ?_, fun r h0 h1 => ?_, fun x _ h => ?_, s.sameContext_putByte a v⟩
  · exact State.readByte_putByte_of_ne v hm (by simpa using hb)
  · exact State.reg_putByte_other (by simpa using h0) (by simpa using h1)
  · exact State.flag_putByte_other (by simpa using h)

theorem frame_putByte {s : State} (a : Addr) (v : Byte) (hm : s.mem.wf memSize = true) : Frame s (s.putByte a v) [a] [] :=
  frame_putByte_of a v fun _ => hm

theorem frame_setReg (s : State) (r : Reg) (v : Word) : Frame s (s.setReg r v) [r.addr, r.addr + 1#20] [] := by
  refine ⟨fun a ha _ => ?_, fun q h0 _ => ?_, fun _ _ _ => rfl, by simp [SameContext]⟩
  · refine readByte_congr (fun q h e => ?_) (fun _ _ => rfl) (by simp) rfl rfl
    by_cases hq : q = r
    · subst hq
      exact absurd (cellAt_eq_reg.1 e) (by cases h <;> simp_all)
    · exact State.reg_setReg_other _ _ hq
  · by_cases hq : q = r
    · subst hq
      simp at h0
    · exact State.reg_setReg_other _ _ hq

/-! ### Stores -/

theorem State.putMem_mem_wf {s : State} {w : Width} {a : Addr} {v : BitVec w.bits} (hm : s.mem.wf memSize = true) :
    (s.putMem w a v).mem.wf memSize = true := by
  cases w
  · exact State.putByte_mem_wf hm
  · exact State.putByte_mem_wf (State.putByte_mem_wf hm)

@[simp] theorem State.putMem_IP (s : State) (w : Width) (a : Addr) (v : BitVec w.bits) : (s.putMem w a v).IP = s.IP := by
  cases w <;> simp [State.putMem]

theorem frame_putMem {s : State} (w : Width) (a : Addr) (v : BitVec w.bits) (hm : s.mem.wf memSize = true) :
    Frame s (s.putMem w a v) (bytesAt w a) [] := by
  cases w
  · exact frame_putByte a v hm
  · exact (frame_putByte a _ hm).trans (frame_putByte (a + 1#20) _ (State.putByte_mem_wf hm))

theorem addr_ne_succ (a : Addr) : a ≠ a + 1#20 := by
  intro h
  have := congrArg BitVec.toNat h
  rw [BitVec.toNat_add, BitVec.toNat_ofNat] at this
  omega

/-- What a store leaves at its bytes. -/
theorem holds_putMem {s : State} {w : Width} {a : Addr} {v : BitVec w.bits} (hm : s.mem.wf memSize = true)
    (hv : canStore w a v = true) : Holds (s.putMem w a v) w a v := by
  cases w
  · exact fun h _ => State.readByte_putByte_same hm hv h
  · simp only [canStore, Bool.and_eq_true] at hv
    refine ⟨fun h _ => ?_, fun h _ => State.readByte_putByte_same (State.putByte_mem_wf hm) hv.2 h⟩
    rw [State.putMem, State.readByte_putByte_other _ (State.putByte_mem_wf hm) (addr_ne_succ a)]
    exact State.readByte_putByte_same hm hv.1 h

theorem State.writeMem_eq_next {s t : State} {w : Width} {a : Addr} {v : BitVec w.bits} :
    s.writeMem w a v = .next t ↔ canStore w a v = true ∧ t = s.putMem w a v := by
  unfold State.writeMem
  split
  · next h => exact ⟨fun e => ⟨h, (Host.Outcome.next.inj e).symm⟩, fun e => e.2 ▸ rfl⟩
  · next h => exact ⟨fun e => (nomatch e), fun e => absurd e.1 h⟩

theorem State.writeMem_of_canStore {s : State} {w : Width} {a : Addr} {v : BitVec w.bits} (h : canStore w a v = true) :
    s.writeMem w a v = .next (s.putMem w a v) := if_pos h

theorem State.writeLoc_eq (s : State) (w : Width) (l : Loc) (v : BitVec w.bits) :
    s.writeLoc w l v = if canStoreLoc w l v then .next (s.putLoc w l v) else .refused .breaksPageInvariant := by
  cases l <;> rfl

theorem State.writeLoc_of_canStore {s : State} {w : Width} {l : Loc} {v : BitVec w.bits} (h : canStoreLoc w l v = true) :
    s.writeLoc w l v = .next (s.putLoc w l v) := by
  simp [State.writeLoc_eq, h]

theorem canStore_of_plain {w : Width} {a : Addr} (h : Plain w a) (v : BitVec w.bits) : canStore w a v = true := by
  cases w
  · exact canStoreByte_plain h
  · simp [canStore, canStoreByte_plain h.1, canStoreByte_plain h.2]

/-- A store to ordinary memory changes `mem` only. -/
theorem State.putMem_plain {s : State} {w : Width} {a : Addr} (h : Plain w a) (v : BitVec w.bits) :
    ∃ m, s.putMem w a v = { s with mem := m } := by
  cases w
  · exact ⟨_, State.putByte_plain h⟩
  · exact ⟨_, by rw [State.putMem, State.putByte_plain h.1, State.putByte_plain h.2]⟩

@[simp] theorem State.putLoc_IP (s : State) (w : Width) (l : Loc) (v : BitVec w.bits) : (s.putLoc w l v).IP = s.IP := by
  cases l with
  | reg i => cases w <;> rfl
  | mem a => simp [State.putLoc]

/-! ### Registers by number -/

theorem regAddr_word (i : RegNum) : regAddr .word i = (Reg.ofNum i).addr := by
  revert i
  decide

theorem cellAt_regAddr_byte (i : RegNum) : cellAt (regAddr .byte i) = .reg (Reg.ofNum8 i) (isHigh8 i) := by
  revert i
  decide

/-- The byte of the page at `RegAddr(0, i)` is `R8[i]` (10_state R22, R25). -/
theorem State.readByte_regAddr (s : State) (i : RegNum) : s.readByte (regAddr .byte i) = s.reg8 i := by
  simp [State.readByte, cellAt_regAddr_byte, State.reg8]

/-- The word of the page at a register's address is the register (10_state R25). -/
theorem State.readMem_regAddr (s : State) (r : Reg) : s.readMem .word r.addr = s.reg r := by
  have h : s.readMem .word r.addr = byteOf true (s.reg r) ++ byteOf false (s.reg r) := by
    simp [State.readMem, State.readByte, cellAt_reg_low, cellAt_reg_high]
  rw [h, byteOf_append_byteOf]

/-- A store to a register's byte in the page is a write of that half of the register. -/
theorem State.putByte_regAddr (s : State) (i : RegNum) (b : Byte) : s.putByte (regAddr .byte i) b = s.setReg8 i b := by
  simp [State.putByte, cellAt_regAddr_byte, State.setReg8]

theorem withByte_low_high (v w : Word) : withByte true (byteOf true v) (withByte false (byteOf false v) w) = v := by
  rw [withByte, if_pos rfl, byteOf_withByte, byteOf_append_byteOf]

/-- A store of a word to a register's address in the page is a write of the register. -/
theorem State.putMem_regAddr (s : State) (r : Reg) (v : Word) : s.putMem .word r.addr v = s.setReg r v := by
  have h : s.putMem .word r.addr v =
      s.setReg r (withByte true (byteOf true v) (withByte false (byteOf false v) (s.reg r))) := by
    simp [State.putMem, State.putByte, cellAt_reg_low, cellAt_reg_high]
  rw [h, withByte_low_high]

theorem State.readLoc_regAddr (s : State) (w : Width) (i : RegNum) : s.readMem w (regAddr w i) = s.readLoc w (.reg i) := by
  cases w
  · exact s.readByte_regAddr i
  · rw [regAddr_word]
    exact s.readMem_regAddr _

theorem State.putLoc_regAddr (s : State) (w : Width) (i : RegNum) (v : BitVec w.bits) :
    s.putLoc w (.reg i) v = s.putMem w (regAddr w i) v := by
  cases w
  · exact (s.putByte_regAddr i v).symm
  · rw [regAddr_word]
    exact (s.putMem_regAddr _ v).symm

theorem canStore_regAddr (w : Width) (i : RegNum) (v : BitVec w.bits) : canStore w (regAddr w i) v = true := by
  cases w
  · simp [canStore, canStoreByte, cellAt_regAddr_byte]
  · rw [regAddr_word]
    simp [canStore, canStoreByte, cellAt_reg_low, cellAt_reg_high]

/-- A store to a location is a store to its address (00_scope R9). -/
theorem State.putLoc_eq_putMem (s : State) (w : Width) (l : Loc) (v : BitVec w.bits) :
    s.putLoc w l v = s.putMem w (l.addr w) v := by
  cases l
  · exact s.putLoc_regAddr w _ v
  · rfl

theorem canStoreLoc_eq (w : Width) (l : Loc) (v : BitVec w.bits) : canStoreLoc w l v = canStore w (l.addr w) v := by
  cases l
  · simp [canStoreLoc, Loc.addr, canStore_regAddr]
  · rfl

theorem frame_putLoc {s : State} (w : Width) (l : Loc) (v : BitVec w.bits) (hm : s.mem.wf memSize = true) :
    Frame s (s.putLoc w l v) (l.bytes w) [] := by
  rw [State.putLoc_eq_putMem]
  exact frame_putMem w _ v hm

theorem holds_putLoc {s : State} {w : Width} {l : Loc} {v : BitVec w.bits} (hm : s.mem.wf memSize = true)
    (hv : canStoreLoc w l v = true) : Holds (s.putLoc w l v) w (l.addr w) v := by
  rw [State.putLoc_eq_putMem]
  exact holds_putMem hm (canStoreLoc_eq w l v ▸ hv)

theorem State.putLoc_mem_wf {s : State} {w : Width} {l : Loc} {v : BitVec w.bits} (hm : s.mem.wf memSize = true) :
    (s.putLoc w l v).mem.wf memSize = true := by
  rw [State.putLoc_eq_putMem]
  exact State.putMem_mem_wf hm

/-! ### `SetIP` -/

theorem State.setIP_eq_next {s t : State} {v : Int} :
    s.setIP v = .next t ↔ (0 ≤ v ∧ v ≤ 0xFFFF) ∧ t = { s with IP := BitVec.ofInt 16 v } := by
  unfold State.setIP
  split
  · next h => exact ⟨fun e => ⟨h, (Host.Outcome.next.inj e).symm⟩, fun e => e.2 ▸ rfl⟩
  · next h => exact ⟨fun e => (nomatch e), fun e => absurd e.1 h⟩

theorem State.setIP_of_range {s : State} {v : Int} (h : 0 ≤ v ∧ v ≤ 0xFFFF) :
    s.setIP v = .next { s with IP := BitVec.ofInt 16 v } := by
  simp [State.setIP, h]

theorem State.setIP_of_not_range {s : State} {v : Int} (h : ¬(0 ≤ v ∧ v ≤ 0xFFFF)) : s.setIP v = .fault .runaway := by
  simp [State.setIP, h]

theorem State.setIP_toNat (s : State) (v : Word) : s.setIP v.toNat = .next { s with IP := v } := by
  have := v.isLt
  rw [State.setIP_of_range (by omega), BitVec.ofInt_natCast, BitVec.ofNat_toNat, BitVec.setWidth_eq]

theorem ofInt_next (v : Word) (len : Nat) : BitVec.ofInt 16 ((v.toNat + len : Nat) : Int) = v + BitVec.ofNat 16 len := by
  rw [BitVec.ofInt_natCast, BitVec.ofNat_add, BitVec.ofNat_toNat, BitVec.setWidth_eq]

/-- `SetIP(next)` of an instruction that ends inside its segment. -/
theorem State.advance_of_fits {s : State} {len : Nat} (h : s.Fits len) :
    s.advance len = .next { s with IP := s.IP + BitVec.ofNat 16 len } := by
  unfold State.Fits at h
  rw [State.advance, State.nextIP, State.setIP_of_range (by omega), ofInt_next]

theorem State.advance_eq_next {s t : State} {len : Nat} :
    s.advance len = .next t ↔ s.Fits len ∧ t = { s with IP := s.IP + BitVec.ofNat 16 len } := by
  rw [State.advance, State.nextIP, State.setIP_eq_next, ofInt_next]
  unfold State.Fits
  constructor <;> rintro ⟨h, rfl⟩ <;> exact ⟨by omega, rfl⟩

theorem State.withReturn_of_fits {s : State} {len : Nat} (h : s.Fits len) (k : Word → Result) :
    s.withReturn len k = k (s.IP + BitVec.ofNat 16 len) := by
  unfold State.Fits at h
  simp [State.withReturn, h, BitVec.ofNat_add]

end Sys2Proof.Machine
end

