-- ==== Sys2Proof/Laws/Exec.lean ====
section
/-! SUPPORT. How the shared endings of the meanings end: falling through, storing and falling through, jumping; and the frames of
register writes, pushes and pops. -/

namespace Sys2Proof.Machine

variable {i : Instr} {s t : State} {len : Nat} {post : State → Prop}

theorem fits_congr (h : t.IP = s.IP) : t.Fits len ↔ s.Fits len := by
  simp only [State.Fits, h]

theorem State.advance_of_not_fits (h : ¬s.Fits len) : s.advance len = .fault .runaway := by
  unfold State.Fits at h
  exact State.setIP_of_not_range (by unfold State.nextIP; omega)

/-- A meaning that ends with `SetIP(next)`. `hc` says that the postcondition does not speak of `IP`. -/
theorem runsTo_advance (h : exec i s = t.advance len) (hip : t.IP = s.IP) (hp : post t)
    (hc : ∀ (u : State) (v : Word), post u → post { u with IP := v } := by exact fun _ _ h => h) : RunsTo i s len post := by
  refine ⟨fun hf => ⟨_, ?_, rfl, hc t (s.IP + BitVec.ofNat 16 len) hp⟩, fun hf => ?_⟩
  · rw [h, State.advance_of_fits ((fits_congr hip).2 hf), hip]
  · rw [h, State.advance_of_not_fits (mt (fits_congr hip).1 hf)]

/-- A meaning that stores to a location and ends with `SetIP(next)`. -/
theorem storesTo_writeLoc {w : Width} {l : Loc} {v : BitVec w.bits} {g : State → State}
    (h : exec i s = andThen (t.writeLoc w l v) fun u => (g u).advance len) (hip : t.IP = s.IP) (hg : ∀ u, (g u).IP = u.IP)
    (hp : canStoreLoc w l v = true → post (g (t.putLoc w l v)))
    (hc : ∀ (u : State) (v : Word), post u → post { u with IP := v } := by exact fun _ _ h => h) :
    StoresTo i s (canStoreLoc w l v) len post := by
  refine ⟨fun hk => ?_, fun hk => ?_⟩
  · refine runsTo_advance (t := g (t.putLoc w l v)) ?_ ?_ (hp hk) hc
    · rw [h, State.writeLoc_of_canStore hk, andThen_next]
    · rw [hg, State.putLoc_IP, hip]
  · rw [h, State.writeLoc_eq, hk]
    rfl

/-- A meaning that is `SetIP` of an exact integer. -/
theorem jumpsTo_setIP {v : Int} (h : exec i s = t.setIP v) : JumpsTo i s t v :=
  ⟨fun hv => by rw [h, State.setIP_of_range hv], fun hv => by rw [h, State.setIP_of_not_range hv]⟩

theorem State.advance_eq (s : State) (len : Nat) : s.advance len = s.setIP (s.IP.toNat + len) := by
  simp [State.advance, State.nextIP]

theorem State.jump_eq (s : State) (len : Nat) (d : Int) : s.jump len d = s.setIP (s.IP.toNat + len + d) := by
  simp [State.jump, State.nextIP]

/-! ### Frames of register writes -/

theorem frame_setReg_bytes (s : State) (r : Reg) (v : Word) : Frame s (s.setReg r v) r.bytes [] := frame_setReg s r v

/-- A write of a register by number, at either width, changes the bytes of that register only. -/
theorem frame_writeReg (s : State) (w : Width) (i : RegNum) (v : BitVec w.bits) :
    Frame s (s.writeReg w i v) (bytesAt w (regAddr w i)) [] := by
  cases w
  · have h := frame_putByte_of (s := s) (regAddr .byte i) v (by simp [cellAt_regAddr_byte])
    rw [State.putByte_regAddr] at h
    exact h
  · rw [regAddr_word]
    exact frame_setReg s _ v

@[simp] theorem State.readReg_writeReg_same (s : State) (w : Width) (i : RegNum) (v : BitVec w.bits) :
    (s.writeReg w i v).readReg w i = v := by
  cases w
  · simp [State.writeReg, State.readReg, State.setReg8, State.reg8]
  · simp [State.writeReg, State.readReg]

@[simp] theorem State.writeReg_IP (s : State) (w : Width) (i : RegNum) (v : BitVec w.bits) : (s.writeReg w i v).IP = s.IP := by
  cases w <;> rfl

@[simp] theorem State.setReg8_IP (s : State) (i : RegNum) (v : Byte) : (s.setReg8 i v).IP = s.IP := rfl

theorem sets_writeReg (s : State) (w : Width) (i : RegNum) (v : BitVec w.bits) : Sets s (s.writeReg w i v) w i v :=
  ⟨State.readReg_writeReg_same s w i v, frame_writeReg s w i v⟩

theorem setsReg_setReg (s : State) (r : Reg) (v : Word) : SetsReg s (s.setReg r v) r v :=
  ⟨State.reg_setReg_same s r v, frame_setReg s r v⟩

/-- A meaning that writes a register by number and falls through. -/
theorem runsTo_writeReg {w : Width} {r : RegNum} {v : BitVec w.bits} (h : exec i s = (s.writeReg w r v).advance len) :
    RunsTo i s len fun t => Sets s t w r v :=
  runsTo_advance h (State.writeReg_IP s w r v) (sets_writeReg s w r v)

/-- A meaning that writes a 16-bit register and falls through. -/
theorem runsTo_setReg {r : Reg} {v : Word} (h : exec i s = (s.setReg r v).advance len) :
    RunsTo i s len fun t => SetsReg s t r v :=
  runsTo_advance h rfl (setsReg_setReg s r v)

/-- A meaning that sets flags and falls through. -/
theorem flagsOnly_setFlags {f : Flags} {fl : List Flag} (h : exec i s = (s.setFlags f).advance len)
    (hf : ∀ x, x ∉ fl → f.get x = s.flags.get x) : FlagsOnly i s f fl len :=
  runsTo_advance h rfl ⟨fun _ _ _ => rfl, frame_setFlags hf⟩

/-- A meaning that stores a value to a location and falls through. -/
theorem storesOnly_storeLoc {w : Width} {l : Loc} {v : BitVec w.bits} (hm : s.mem.wf memSize = true)
    (h : exec i s = andThen (s.writeLoc w l v) fun t => t.advance len) : StoresOnly i s w l v len :=
  storesTo_writeLoc (g := id) h rfl (fun _ => rfl) fun hc => ⟨holds_putLoc hm hc, frame_putLoc w l v hm⟩

/-- What a location holds after flags outside the cells of `fl` were set. -/
theorem holds_setFlags {w : Width} {a : Addr} {v : BitVec w.bits} {f : Flags} {fl : List Flag} (h : Holds t w a v)
    (hf : ∀ x, x ∉ fl → f.get x = t.flags.get x) : Holds (t.setFlags f) w a v fl := by
  have key : ∀ (b : Addr) (y : Byte), HoldsByte t b y [] → HoldsByte (t.setFlags f) b y fl := fun b y hb hs hx =>
    ((frame_setFlags hf).1 b (by simp) hx).trans (hb hs (by simp))
  cases w
  · exact key _ _ h
  · exact ⟨key _ _ h.1, key _ _ h.2⟩

/-- The flags are set, then a value is stored (43_alu R220). -/
theorem storesAndFlags_storeLast {w : Width} {l : Loc} {v : BitVec w.bits} {f : Flags} {fl : List Flag}
    (hm : s.mem.wf memSize = true) (hc : canStoreLoc w l v = true) (hf : ∀ x, x ∉ fl → f.get x = s.flags.get x) :
    StoresAndFlags s ((s.setFlags f).putLoc w l v) w l v f fl true := by
  have hp := frame_putLoc (s := s.setFlags f) w l v hm
  exact ⟨holds_putLoc (s := s.setFlags f) hm hc, fun x _ hs => hp.2.2.1 x (by simp) hs,
    ((frame_setFlags hf).trans hp).mono (by simp) (by simp)⟩

/-- A value is stored, then the flags are set (41_data_movement R178). -/
theorem storesAndFlags_storeFirst {w : Width} {l : Loc} {v : BitVec w.bits} {f g : Flags} {fl : List Flag}
    (hm : s.mem.wf memSize = true) (hc : canStoreLoc w l v = true)
    (hf : ∀ x, x ∉ fl → f.get x = (s.putLoc w l v).flags.get x) (hg : ∀ x ∈ fl, f.get x = g.get x) :
    StoresAndFlags s ((s.putLoc w l v).setFlags f) w l v g fl false :=
  ⟨holds_setFlags (holds_putLoc hm hc) hf, fun x hx _ => hg x hx,
    ((frame_putLoc w l v hm).trans (frame_setFlags hf)).mono (by simp) (by simp)⟩

/-! ### The stack -/

theorem State.pop16_eq (s : State) : s.pop16 = s.setReg .sp (s.reg .sp + 2#16) := rfl

theorem State.lowerSP_stackAddr (s : State) : s.lowerSP.stackAddr = s.stackBelow 2 := by
  simp [State.lowerSP, State.stackAddr, State.stackBelow, State.reg_setReg]

/-- A push is a store below the stack pointer after `SP` was lowered. -/
theorem State.push16_eq (s : State) (v : Word) :
    s.push16 v = (s.setReg .sp (s.reg .sp - 2#16)).writeMem .word (s.stackBelow 2) v := by
  rw [State.push16, State.lowerSP_stackAddr]
  rfl

theorem State.push16_of_canStore {v : Word} (h : canStore .word (s.stackBelow 2) v = true) :
    s.push16 v = .next ((s.setReg .sp (s.reg .sp - 2#16)).putMem .word (s.stackBelow 2) v) := by
  rw [State.push16_eq, State.writeMem_of_canStore h]

theorem State.push16_of_not_canStore {v : Word} (h : canStore .word (s.stackBelow 2) v = false) :
    s.push16 v = .refused .breaksPageInvariant := by
  rw [State.push16_eq, State.writeMem, h]
  rfl

/-- A push to ordinary memory changes no register but `SP`. -/
theorem State.regs_push_plain {a : Addr} (hp : Plain .word a) (v x : Word) :
    ((s.setReg .sp x).putMem .word a v).regs = s.regs.set .sp x := by
  obtain ⟨m, h⟩ := State.putMem_plain (s := s.setReg .sp x) hp v
  rw [h]
  rfl

/-- A word of ordinary memory reads as the word stored there. -/
theorem readMem_of_holds {a : Addr} {v : Word} (hp : Plain .word a) (h : Holds s .word a v) : s.readMem .word a = v := by
  show s.readByte (a + 1#20) ++ s.readByte a = v
  rw [h.1 (by simp [hp.1]) (by simp), h.2 (by simp [hp.2]) (by simp), byteOf_append_byteOf]

/-- The state after `IRET`, as one update (46_control_transfer R321). -/
theorem State.interruptReturn_eq (s : State) :
    s.interruptReturn = .next { ((s.setReg .sp (s.reg .sp + 6#16)).setReg .cs s.pop16.stackTop).setFlags
      (Flags.unpack ((s.setReg .sp (s.reg .sp + 4#16)).setReg .cs s.pop16.stackTop).stackTop) with IP := s.stackTop } := by
  have h4 : s.pop16.pop16 = s.setReg .sp (s.reg .sp + 4#16) := by
    simp only [State.pop16_eq, State.setReg_setReg, State.reg_setReg_same, BitVec.add_assoc]
    rfl
  have h6 : ((s.setReg .sp (s.reg .sp + 4#16)).setReg .cs s.pop16.stackTop).pop16 =
      (s.setReg .sp (s.reg .sp + 6#16)).setReg .cs s.pop16.stackTop := by
    generalize s.pop16.stackTop = c
    simp only [State.setReg, State.pop16_eq, Regs.set, State.reg, Regs.get, BitVec.add_assoc]
    rfl
  unfold State.interruptReturn
  dsimp only
  rw [h4, h6, State.setIP_toNat]

/-- What a push leaves. -/
theorem pushes_putMem {s : State} (hm : s.mem.wf memSize = true) {v : Word} (hc : canStore .word (s.stackBelow 2) v = true) :
    Pushes s ((s.setReg .sp (s.reg .sp - 2#16)).putMem .word (s.stackBelow 2) v) v := by
  have hm' : (s.setReg .sp (s.reg .sp - 2#16)).mem.wf memSize = true := hm
  have hf := frame_putMem .word (s.stackBelow 2) v hm'
  unfold Pushes
  refine ⟨holds_putMem hm' hc, fun h => ?_, ?_⟩
  · rw [hf.2.1 .sp (h _ (by simp [Reg.bytes])) (h _ (by simp [Reg.bytes])), State.reg_setReg_same]
  · exact ((frame_setReg s .sp _).trans hf).mono
      (List.append_subset.2 ⟨List.subset_append_right _ _, List.subset_append_left _ _⟩) (by simp)

end Sys2Proof.Machine
end

