-- ==== Sys2Proof/Laws/Kept.lean ====
section
/-! SUPPORT. What every instruction does to the state, said once: a relation that each elementary update satisfies, and that is
reflexive and transitive, holds from the state before an instruction to the state after it. -/

namespace Sys2Proof.Machine

/-- A relation that holds over every update of a register, a flag, a byte of memory, `IP` and the counter of draws. -/
structure Kept (R : State → State → Prop) : Prop where
  refl : ∀ s, R s s
  trans : ∀ {s t u}, R s t → R t u → R s u
  setReg : ∀ s r v, R s (s.setReg r v)
  setFlags : ∀ s f, R s (s.setFlags f)
  putByte : ∀ s a v, canStoreByte a v = true → R s (s.putByte a v)
  setIP : ∀ (s : State) v, R s { s with IP := v }
  nextDraw : ∀ s, R s s.nextDraw

/-- The same over the updates of `Ports` and what `PortDevice` does. -/
structure KeptPorts (R : State → State → Prop) : Prop where
  setPort : ∀ s p v, R s (s.setPort p v)
  deviceCalled : ∀ s w p v, R s (s.deviceCalled w p v)

/-- Whatever next state `r` answers, `R` holds from `s` to it. -/
def Ends (R : State → State → Prop) (s : State) (r : Result) : Prop := ∀ t, r = .next t → R s t

section

variable {R : State → State → Prop} (k : Kept R) {s t : State}
include k

omit k in
theorem ends_next (h : R s t) : Ends R s (.next t) := fun _ e => Host.Outcome.next.inj e ▸ h

omit k in
theorem ends_fault (f : Fault) : Ends R s (.fault f) := fun _ e => nomatch e

omit k in
theorem ends_refused (x : Refusal) : Ends R s (.refused x) := fun _ e => nomatch e

theorem ends_andThen {r : Result} {g : State → Result} (h : Ends R s r) (hg : ∀ u, Ends R u (g u)) : Ends R s (andThen r g) := by
  intro t e
  obtain ⟨u, h1, h2⟩ := andThen_eq_next.1 e
  exact k.trans (h u h1) (hg u t h2)

theorem ends_trans {r : Result} (h : R s t) (hr : Ends R t r) : Ends R s r := fun u e => k.trans h (hr u e)

theorem ends_setIP (h : R s t) (v : Int) : Ends R s (t.setIP v) := by
  intro u e
  rw [(State.setIP_eq_next.1 e).2]
  exact k.trans h (k.setIP t _)

theorem ends_advance (h : R s t) (len : Nat) : Ends R s (t.advance len) := ends_setIP k h _

theorem kept_setReg8 (s : State) (i : RegNum) (v : Byte) : R s (s.setReg8 i v) := k.setReg s _ _

theorem kept_writeReg (s : State) (w : Width) (i : RegNum) (v : BitVec w.bits) : R s (s.writeReg w i v) := by
  cases w
  · exact kept_setReg8 k s i v
  · exact k.setReg s _ v

theorem ends_writeMem (s : State) (w : Width) (a : Addr) (v : BitVec w.bits) : Ends R s (s.writeMem w a v) := by
  intro t e
  obtain ⟨hc, rfl⟩ := State.writeMem_eq_next.1 e
  cases w
  · exact k.putByte s a v hc
  · simp only [canStore, Bool.and_eq_true] at hc
    exact k.trans (k.putByte s a _ hc.1) (k.putByte _ _ _ hc.2)

theorem ends_writeLoc (s : State) (w : Width) (l : Loc) (v : BitVec w.bits) : Ends R s (s.writeLoc w l v) := by
  cases l with
  | reg i => exact ends_next (kept_writeReg k s w i v)
  | mem a => exact ends_writeMem k s w a v

theorem ends_storeThenNext (h : R s t) (w : Width) (l : Loc) (v : BitVec w.bits) (len : Nat) :
    Ends R s (t.storeThenNext w l v len) :=
  ends_trans k h (ends_andThen k (ends_writeLoc k t w l v) fun u => ends_advance k (k.refl u) len)

theorem ends_writeBytes (s : State) (a : Addr) (f : Nat → Byte) (i n : Nat) : Ends R s (s.writeBytes a f i n) := by
  induction n generalizing s i with
  | zero => exact ends_next (k.refl s)
  | succ n ih => exact ends_andThen k (ends_writeMem k s .byte _ _) fun u => ih u (i + 1)

theorem kept_pop16 (s : State) : R s s.pop16 := k.setReg s _ _

theorem ends_push16 (s : State) (v : Word) : Ends R s (s.push16 v) :=
  ends_trans k (k.setReg s _ _) (ends_writeMem k _ .word _ v)

theorem ends_pushThenNext (s : State) (v : Word) (len : Nat) : Ends R s (s.pushThenNext v len) :=
  ends_andThen k (ends_push16 k s v) fun u => ends_advance k (k.refl u) len

theorem kept_enterVector (s : State) (v : Byte) : R s (s.enterVector v) :=
  k.trans (k.setIP s _) (k.trans (k.setReg _ .cs _) (k.setFlags _ _))

theorem ends_deliver (s : State) (v : Byte) : Ends R s (s.deliver v) :=
  ends_andThen k (ends_push16 k s _) fun a => ends_andThen k (ends_push16 k a _) fun b =>
    ends_andThen k (ends_push16 k b _) fun c => ends_next (kept_enterVector k c v)

theorem ends_interruptReturn (s : State) : Ends R s s.interruptReturn := by
  rw [State.interruptReturn_eq]
  exact ends_next (k.trans (k.setReg s _ _) (k.trans (k.setReg _ _ _) (k.trans (k.setFlags _ _) (k.setIP _ _))))

omit k in
theorem ends_withReturn (len : Nat) {g : Word → Result} (hg : ∀ v, Ends R s (g v)) : Ends R s (s.withReturn len g) := by
  unfold State.withReturn
  split
  · exact hg _
  · exact ends_fault _

theorem ends_branch (h : R s t) (taken : Bool) (rel : Byte) : Ends R s (t.branch taken rel) := by
  unfold State.branch
  split
  · exact ends_setIP k h _
  · exact ends_advance k h 2

theorem ends_callFar (s : State) (len : Nat) (seg off : Word) : Ends R s (s.callFar len seg off) :=
  ends_withReturn len fun _ => ends_andThen k (ends_push16 k s _) fun a => ends_andThen k (ends_push16 k a _) fun b =>
    ends_setIP k (k.setReg b .cs seg) _

theorem ends_interrupt (s : State) (len : Nat) (v : Byte) : Ends R s (s.interrupt len v) :=
  ends_andThen k (ends_advance k (k.refl s) len) fun u => ends_deliver k u v

theorem ends_alu (s : State) (op : AluOp) (w : Width) (l : Loc) (d e : BitVec w.bits) (len : Nat) :
    Ends R s (s.alu op w l d e len) := by
  unfold State.alu
  split
  · exact ends_storeThenNext k (k.setFlags s _) w l _ len
  · exact ends_advance k (k.setFlags s _) len

theorem ends_shift (s : State) (op : ShiftOp) (w : Width) (l : Loc) (c0 len : Nat) : Ends R s (s.shift op w l c0 len) := by
  unfold State.shift
  split
  · exact ends_advance k (k.refl s) len
  · exact ends_andThen k (ends_writeLoc k s w l _) fun u => ends_advance k (k.setFlags u _) len

/-- A store followed by flags and `SetIP(next)`: `INC`, `DEC` and `NEG`. -/
theorem ends_storeFlags (w : Width) (l : Loc) (v : BitVec w.bits) (f : State → Flags) (len : Nat) :
    Ends R s (andThen (s.writeLoc w l v) fun u => (u.setFlags (f u)).advance len) :=
  ends_andThen k (ends_writeLoc k s w l v) fun u => ends_advance k (k.setFlags u _) len

theorem kept_setWideAcc (s : State) (w : Width) (hi lo : BitVec w.bits) : R s (s.setWideAcc w hi lo) := by
  cases w
  · exact k.setReg s _ _
  · exact k.trans (k.setReg s _ _) (k.setReg _ _ _)

theorem ends_multiply (s : State) (w : Width) (p : Int) (high : Bool) (len : Nat) : Ends R s (s.multiply w p high len) :=
  ends_advance k (k.trans (kept_setWideAcc k s w _ _) (k.setFlags _ _)) len

theorem ends_divided (s : State) (w : Width) (q r : BitVec w.bits) (len : Nat) : Ends R s (s.divided w q r len) :=
  ends_advance k (k.trans (kept_setWideAcc k s w _ _) (k.setFlags _ _)) len

theorem ends_divideUnsigned (s : State) (w : Width) (v : BitVec w.bits) (len : Nat) : Ends R s (s.divideUnsigned w v len) := by
  unfold State.divideUnsigned
  split
  · exact ends_deliver k s 0
  · split
    · exact ends_deliver k s 0
    · exact ends_divided k s w _ _ len

theorem ends_divideSigned (s : State) (w : Width) (v : BitVec w.bits) (len : Nat) : Ends R s (s.divideSigned w v len) := by
  unfold State.divideSigned
  dsimp only
  split
  · exact ends_deliver k s 0
  · split
    · exact ends_deliver k s 0
    · exact ends_divided k s w _ _ len

theorem ends_repeatBody {body : State → Result} (hb : ∀ u, Ends R u (body u)) (n : Nat) (s : State) :
    Ends R s (repeatBody body n s) := by
  induction n generalizing s with
  | zero => exact ends_next (k.refl s)
  | succ n ih => exact ends_andThen k (hb s) fun u => ends_trans k (k.nextDraw u) (ih u.nextDraw)

theorem ends_repeated {body : State → Result} (hb : ∀ u, Ends R u (body u)) (s : State) : Ends R s (s.repeated body) := by
  unfold State.repeated
  split
  · exact ends_andThen k (ends_repeatBody k hb _ s) fun u => ends_advance k (k.setReg u _ _) 1
  · exact ends_andThen k (hb s) fun u => ends_advance k (k.refl u) 1

theorem kept_stepSI (s : State) (w : Width) : R s (s.stepSI w) := k.setReg s _ _

theorem kept_stepDI (s : State) (w : Width) : R s (s.stepDI w) := k.setReg s _ _

theorem kept_compareLoop {w : Width} {pair : State → BitVec w.bits × BitVec w.bits} {update : State → State}
    (hu : ∀ u, R u (update u)) (n : Nat) (s : State) : R s (compareLoop pair update n s).1 := by
  have ht : ∀ u : State, R u ((update u).setReg .cx ((update u).reg .cx - 1#16)) := fun u => k.trans (hu u) (k.setReg _ _ _)
  induction n generalizing s with
  | zero => exact ht s
  | succ n ih =>
    unfold compareLoop
    dsimp only
    split
    · exact ht s
    · exact k.trans (ht s) (k.trans (k.nextDraw _) (ih _))

theorem ends_compared {n : Nat} (h : R s t) (d e : BitVec n) : Ends R s (t.compared d e) :=
  ends_advance k (k.trans h (k.setFlags t _)) 1

theorem ends_compareRepeated (w : Width) {pair : State → BitVec w.bits × BitVec w.bits} {update : State → State}
    (hu : ∀ u, R u (update u)) (s : State) : Ends R s (s.compareRepeated w pair update) := by
  unfold State.compareRepeated
  split
  · split
    · exact ends_advance k (k.refl s) 1
    · exact ends_compared k (kept_compareLoop k hu _ s) _ _
  · exact ends_compared k (hu s) _ _

theorem kept_cmpsStep (s : State) (w : Width) : R s (s.cmpsStep w) :=
  k.trans (k.nextDraw s) (k.trans (kept_stepSI k _ w) (kept_stepDI k _ w))

theorem kept_portRead (hp : KeptPorts R) (s : State) (w : Width) (p : Word) : R s (s.portRead w p) :=
  k.trans (hp.deviceCalled s w p none) (kept_writeReg k _ w 0 _)

theorem kept_portWrite (hp : KeptPorts R) (s : State) (w : Width) (p : Word) (v : BitVec w.bits) : R s (s.portWrite w p v) := by
  refine k.trans ?_ (hp.deviceCalled _ w p _)
  cases w
  · exact hp.setPort s p v
  · exact k.trans (hp.setPort s p _) (hp.setPort _ _ _)

theorem ends_asciiAdjust (s : State) (v : Word) : Ends R s (s.asciiAdjust v) := by
  unfold State.asciiAdjust
  dsimp only
  refine ends_advance k (k.trans ?_ (k.trans (kept_setReg8 k _ 0 _) (k.setFlags _ _))) 1
  split
  · exact k.setReg s _ _
  · exact k.refl s

/-- The common start of a cycle and end of a cycle (60_exceptions R402) where the relation also holds over their own updates. -/
theorem ends_endOfCycle (hc : ∀ s : State, R s s.countCycle) (hs : ∀ (s : State) b, R s { s with trapShadow := b })
    (ht : ∀ s : State, R s { s with tickPending := false }) (s : State) : Ends R s s.endOfCycle := by
  unfold State.endOfCycle State.trapStep State.tickStep
  refine ends_andThen k (ends_andThen k ?_ fun u => ends_next (hs u _)) fun u => ends_andThen k ?_ fun v =>
    ends_next (k.nextDraw v)
  · split
    · exact ends_trans k (hc s) (ends_deliver k _ 1)
    · exact ends_next (hc s)
  · split
    · exact ends_andThen k (ends_deliver k u _) fun v => ends_next (ht v)
    · exact ends_next (k.refl u)

omit k in
theorem ends_ite {c : Prop} [Decidable c] {r r' : Result} (h : c → Ends R s r) (h' : ¬c → Ends R s r') :
    Ends R s (if c then r else r') := by
  split
  · exact h ‹_›
  · exact h' ‹_›

/-- Every instruction keeps the relation: the prefix bytes if it is kept over what they set, `IN` and `OUT` if it is kept over updates of
`Ports`, the hooks if it is kept over the record of a call. -/
theorem ends_exec (i : Instr) (hs : i.SetsCounter → Ends R s (exec i s)) (hp : i.ReachesPorts → KeptPorts R)
    (hh : i.CallsHost → ∀ u c, R u (u.callHook c)) : Ends R s (exec i s) := by
  cases i with
  | jo rel =>
    show Ends R s (execJo rel s)
    unfold execJo
    exact ends_branch k (k.refl s) _ _
  | jno rel =>
    show Ends R s (execJno rel s)
    unfold execJno
    exact ends_branch k (k.refl s) _ _
  | jb rel =>
    show Ends R s (execJb rel s)
    unfold execJb
    exact ends_branch k (k.refl s) _ _
  | jae rel =>
    show Ends R s (execJae rel s)
    unfold execJae
    exact ends_branch k (k.refl s) _ _
  | je rel =>
    show Ends R s (execJe rel s)
    unfold execJe
    exact ends_branch k (k.refl s) _ _
  | jne rel =>
    show Ends R s (execJne rel s)
    unfold execJne
    exact ends_branch k (k.refl s) _ _
  | jbe rel =>
    show Ends R s (execJbe rel s)
    unfold execJbe
    exact ends_branch k (k.refl s) _ _
  | ja rel =>
    show Ends R s (execJa rel s)
    unfold execJa
    exact ends_branch k (k.refl s) _ _
  | js rel =>
    show Ends R s (execJs rel s)
    unfold execJs
    exact ends_branch k (k.refl s) _ _
  | jns rel =>
    show Ends R s (execJns rel s)
    unfold execJns
    exact ends_branch k (k.refl s) _ _
  | jp rel =>
    show Ends R s (execJp rel s)
    unfold execJp
    exact ends_branch k (k.refl s) _ _
  | jnp rel =>
    show Ends R s (execJnp rel s)
    unfold execJnp
    exact ends_branch k (k.refl s) _ _
  | jl rel =>
    show Ends R s (execJl rel s)
    unfold execJl
    exact ends_branch k (k.refl s) _ _
  | jge rel =>
    show Ends R s (execJge rel s)
    unfold execJge
    exact ends_branch k (k.refl s) _ _
  | jle rel =>
    show Ends R s (execJle rel s)
    unfold execJle
    exact ends_branch k (k.refl s) _ _
  | jg rel =>
    show Ends R s (execJg rel s)
    unfold execJg
    exact ends_branch k (k.refl s) _ _
  | movRmR w reg rm =>
    show Ends R s (execMovRmR w reg rm s)
    unfold execMovRmR
    exact ends_storeThenNext k (k.refl s) _ _ _ _
  | movRRm w reg rm =>
    show Ends R s (execMovRRm w reg rm s)
    unfold execMovRRm
    exact ends_storeThenNext k (k.refl s) _ _ _ _
  | movRm8Imm8 rm imm =>
    show Ends R s (execMovRm8Imm8 rm imm s)
    unfold execMovRm8Imm8
    exact ends_storeThenNext k (k.refl s) _ _ _ _
  | movRm16Imm16 rm imm =>
    show Ends R s (execMovRm16Imm16 rm imm s)
    unfold execMovRm16Imm16
    exact ends_storeThenNext k (k.refl s) _ _ _ _
  | movR8Imm8 r imm =>
    show Ends R s (execMovR8Imm8 r imm s)
    unfold execMovR8Imm8
    exact ends_advance k (kept_writeReg k s _ _ _) _
  | movR16Imm16 r imm =>
    show Ends R s (execMovR16Imm16 r imm s)
    unfold execMovR16Imm16
    exact ends_advance k (kept_writeReg k s _ _ _) _
  | movAccMoffs w addr =>
    show Ends R s (execMovAccMoffs w addr s)
    unfold execMovAccMoffs
    exact ends_advance k (kept_writeReg k s _ _ _) _
  | movMoffsAcc w addr =>
    show Ends R s (execMovMoffsAcc w addr s)
    unfold execMovMoffsAcc
    exact ends_storeThenNext k (k.refl s) _ _ _ _
  | movRm16Sreg sr rm =>
    show Ends R s (execMovRm16Sreg sr rm s)
    unfold execMovRm16Sreg
    exact ends_storeThenNext k (k.refl s) _ _ _ _
  | movSregRm16 sr rm =>
    show Ends R s (execMovSregRm16 sr rm s)
    unfold execMovSregRm16
    exact ends_advance k (k.setReg s _ _) _
  | pushR16 r =>
    show Ends R s (execPushR16 r s)
    unfold execPushR16
    exact ends_andThen k (ends_trans k (k.setReg s _ _) (ends_writeMem k _ _ _ _)) fun u => ends_advance k (k.refl u) _
  | popR16 r =>
    show Ends R s (execPopR16 r s)
    unfold execPopR16
    exact ends_advance k (k.trans (kept_pop16 k s) (k.setReg _ _ _)) _
  | pushSreg sr =>
    show Ends R s (execPushSreg sr s)
    unfold execPushSreg
    exact ends_pushThenNext k s _ _
  | popEs =>
    show Ends R s (execPopEs s)
    unfold execPopEs State.popSegment
    exact ends_advance k (k.trans (kept_pop16 k s) (k.setReg _ _ _)) _
  | popSs =>
    show Ends R s (execPopSs s)
    unfold execPopSs State.popSegment
    exact ends_advance k (k.trans (kept_pop16 k s) (k.setReg _ _ _)) _
  | popDs =>
    show Ends R s (execPopDs s)
    unfold execPopDs State.popSegment
    exact ends_advance k (k.trans (kept_pop16 k s) (k.setReg _ _ _)) _
  | pushRm16 rm =>
    show Ends R s (execPushRm16 rm s)
    unfold execPushRm16
    exact ends_andThen k (ends_trans k (k.setReg s _ _) (ends_writeMem k _ _ _ _)) fun u => ends_advance k (k.refl u) _
  | popRm16 rm =>
    show Ends R s (execPopRm16 rm s)
    unfold execPopRm16
    exact ends_storeThenNext k (kept_pop16 k s) _ _ _ _
  | pushf =>
    show Ends R s (execPushf s)
    unfold execPushf
    exact ends_pushThenNext k s _ _
  | popf =>
    show Ends R s (execPopf s)
    unfold execPopf
    exact ends_advance k (k.trans (kept_pop16 k s) (k.setFlags _ _)) _
  | lahf =>
    show Ends R s (execLahf s)
    unfold execLahf
    exact ends_advance k (kept_setReg8 k s _ _) _
  | sahf =>
    show Ends R s (execSahf s)
    unfold execSahf
    exact ends_advance k (k.setFlags s _) _
  | xchgAxR16 r =>
    show Ends R s (execXchgAxR16 r s)
    unfold execXchgAxR16
    exact ends_advance k (k.trans (k.setReg s _ _) (k.setReg _ _ _)) _
  | nop =>
    show Ends R s (execNop s)
    unfold execNop
    exact ends_advance k (k.refl s) _
  | xchgRmR w reg rm =>
    show Ends R s (execXchgRmR w reg rm s)
    unfold execXchgRmR
    exact ends_storeThenNext k (kept_writeReg k s _ _ _) _ _ _ _
  | lea reg m =>
    show Ends R s (execLea reg m s)
    unfold execLea
    exact ends_advance k (k.setReg s _ _) _
  | les reg m =>
    show Ends R s (execLes reg m s)
    unfold execLes State.loadFar
    exact ends_advance k (k.trans (k.setReg s _ _) (k.setReg _ _ _)) _
  | lds reg m =>
    show Ends R s (execLds reg m s)
    unfold execLds State.loadFar
    exact ends_advance k (k.trans (k.setReg s _ _) (k.setReg _ _ _)) _
  | xlat =>
    show Ends R s (execXlat s)
    unfold execXlat
    exact ends_advance k (kept_setReg8 k s _ _) _
  | cbw =>
    show Ends R s (execCbw s)
    unfold execCbw
    exact ends_advance k (kept_setReg8 k s _ _) _
  | cwd =>
    show Ends R s (execCwd s)
    unfold execCwd
    exact ends_advance k (k.setReg s _ _) _
  | incR16 r =>
    show Ends R s (execIncR16 r s)
    unfold execIncR16
    exact ends_storeFlags k _ _ _ _ _
  | decR16 r =>
    show Ends R s (execDecR16 r s)
    unfold execDecR16
    exact ends_storeFlags k _ _ _ _ _
  | incRm w rm =>
    show Ends R s (execIncRm w rm s)
    unfold execIncRm
    exact ends_storeFlags k _ _ _ _ _
  | decRm w rm =>
    show Ends R s (execDecRm w rm s)
    unfold execDecRm
    exact ends_storeFlags k _ _ _ _ _
  | testRm8Imm8 rm imm =>
    show Ends R s (execTestRm8Imm8 rm imm s)
    unfold execTestRm8Imm8 State.testValues
    exact ends_advance k (k.setFlags s _) _
  | testRm16Imm16 rm imm =>
    show Ends R s (execTestRm16Imm16 rm imm s)
    unfold execTestRm16Imm16 State.testValues
    exact ends_advance k (k.setFlags s _) _
  | notRm w rm =>
    show Ends R s (execNotRm w rm s)
    unfold execNotRm
    exact ends_storeThenNext k (k.refl s) _ _ _ _
  | negRm w rm =>
    show Ends R s (execNegRm w rm s)
    unfold execNegRm
    exact ends_storeFlags k _ _ _ _ _
  | mulRm w rm =>
    show Ends R s (execMulRm w rm s)
    unfold execMulRm
    exact ends_multiply k s _ _ _ _
  | imulRm w rm =>
    show Ends R s (execImulRm w rm s)
    unfold execImulRm
    exact ends_multiply k s _ _ _ _
  | divRm w rm =>
    show Ends R s (execDivRm w rm s)
    unfold execDivRm
    exact ends_divideUnsigned k s _ _ _
  | idivRm w rm =>
    show Ends R s (execIdivRm w rm s)
    unfold execIdivRm
    exact ends_divideSigned k s _ _ _
  | addRmR w d reg rm =>
    show Ends R s (execAddRmR w d reg rm s)
    unfold execAddRmR
    exact ends_alu k s _ _ _ _ _ _
  | addAlImm8 imm =>
    show Ends R s (execAddAlImm8 imm s)
    unfold execAddAlImm8
    exact ends_alu k s _ _ _ _ _ _
  | addAxImm16 imm =>
    show Ends R s (execAddAxImm16 imm s)
    unfold execAddAxImm16
    exact ends_alu k s _ _ _ _ _ _
  | addRm8Imm8 op82 rm imm =>
    show Ends R s (execAddRm8Imm8 op82 rm imm s)
    unfold execAddRm8Imm8
    exact ends_alu k s _ _ _ _ _ _
  | addRm16Imm16 rm imm =>
    show Ends R s (execAddRm16Imm16 rm imm s)
    unfold execAddRm16Imm16
    exact ends_alu k s _ _ _ _ _ _
  | addRm16Simm8 rm imm =>
    show Ends R s (execAddRm16Simm8 rm imm s)
    unfold execAddRm16Simm8
    exact ends_alu k s _ _ _ _ _ _
  | orRmR w d reg rm =>
    show Ends R s (execOrRmR w d reg rm s)
    unfold execOrRmR
    exact ends_alu k s _ _ _ _ _ _
  | orAlImm8 imm =>
    show Ends R s (execOrAlImm8 imm s)
    unfold execOrAlImm8
    exact ends_alu k s _ _ _ _ _ _
  | orAxImm16 imm =>
    show Ends R s (execOrAxImm16 imm s)
    unfold execOrAxImm16
    exact ends_alu k s _ _ _ _ _ _
  | orRm8Imm8 op82 rm imm =>
    show Ends R s (execOrRm8Imm8 op82 rm imm s)
    unfold execOrRm8Imm8
    exact ends_alu k s _ _ _ _ _ _
  | orRm16Imm16 rm imm =>
    show Ends R s (execOrRm16Imm16 rm imm s)
    unfold execOrRm16Imm16
    exact ends_alu k s _ _ _ _ _ _
  | orRm16Simm8 rm imm =>
    show Ends R s (execOrRm16Simm8 rm imm s)
    unfold execOrRm16Simm8
    exact ends_alu k s _ _ _ _ _ _
  | adcRmR w d reg rm =>
    show Ends R s (execAdcRmR w d reg rm s)
    unfold execAdcRmR
    exact ends_alu k s _ _ _ _ _ _
  | adcAlImm8 imm =>
    show Ends R s (execAdcAlImm8 imm s)
    unfold execAdcAlImm8
    exact ends_alu k s _ _ _ _ _ _
  | adcAxImm16 imm =>
    show Ends R s (execAdcAxImm16 imm s)
    unfold execAdcAxImm16
    exact ends_alu k s _ _ _ _ _ _
  | adcRm8Imm8 op82 rm imm =>
    show Ends R s (execAdcRm8Imm8 op82 rm imm s)
    unfold execAdcRm8Imm8
    exact ends_alu k s _ _ _ _ _ _
  | adcRm16Imm16 rm imm =>
    show Ends R s (execAdcRm16Imm16 rm imm s)
    unfold execAdcRm16Imm16
    exact ends_alu k s _ _ _ _ _ _
  | adcRm16Simm8 rm imm =>
    show Ends R s (execAdcRm16Simm8 rm imm s)
    unfold execAdcRm16Simm8
    exact ends_alu k s _ _ _ _ _ _
  | sbbRmR w d reg rm =>
    show Ends R s (execSbbRmR w d reg rm s)
    unfold execSbbRmR
    exact ends_alu k s _ _ _ _ _ _
  | sbbAlImm8 imm =>
    show Ends R s (execSbbAlImm8 imm s)
    unfold execSbbAlImm8
    exact ends_alu k s _ _ _ _ _ _
  | sbbAxImm16 imm =>
    show Ends R s (execSbbAxImm16 imm s)
    unfold execSbbAxImm16
    exact ends_alu k s _ _ _ _ _ _
  | sbbRm8Imm8 op82 rm imm =>
    show Ends R s (execSbbRm8Imm8 op82 rm imm s)
    unfold execSbbRm8Imm8
    exact ends_alu k s _ _ _ _ _ _
  | sbbRm16Imm16 rm imm =>
    show Ends R s (execSbbRm16Imm16 rm imm s)
    unfold execSbbRm16Imm16
    exact ends_alu k s _ _ _ _ _ _
  | sbbRm16Simm8 rm imm =>
    show Ends R s (execSbbRm16Simm8 rm imm s)
    unfold execSbbRm16Simm8
    exact ends_alu k s _ _ _ _ _ _
  | andRmR w d reg rm =>
    show Ends R s (execAndRmR w d reg rm s)
    unfold execAndRmR
    exact ends_alu k s _ _ _ _ _ _
  | andAlImm8 imm =>
    show Ends R s (execAndAlImm8 imm s)
    unfold execAndAlImm8
    exact ends_alu k s _ _ _ _ _ _
  | andAxImm16 imm =>
    show Ends R s (execAndAxImm16 imm s)
    unfold execAndAxImm16
    exact ends_alu k s _ _ _ _ _ _
  | andRm8Imm8 op82 rm imm =>
    show Ends R s (execAndRm8Imm8 op82 rm imm s)
    unfold execAndRm8Imm8
    exact ends_alu k s _ _ _ _ _ _
  | andRm16Imm16 rm imm =>
    show Ends R s (execAndRm16Imm16 rm imm s)
    unfold execAndRm16Imm16
    exact ends_alu k s _ _ _ _ _ _
  | andRm16Simm8 rm imm =>
    show Ends R s (execAndRm16Simm8 rm imm s)
    unfold execAndRm16Simm8
    exact ends_alu k s _ _ _ _ _ _
  | subRmR w d reg rm =>
    show Ends R s (execSubRmR w d reg rm s)
    unfold execSubRmR
    exact ends_alu k s _ _ _ _ _ _
  | subAlImm8 imm =>
    show Ends R s (execSubAlImm8 imm s)
    unfold execSubAlImm8
    exact ends_alu k s _ _ _ _ _ _
  | subAxImm16 imm =>
    show Ends R s (execSubAxImm16 imm s)
    unfold execSubAxImm16
    exact ends_alu k s _ _ _ _ _ _
  | subRm8Imm8 op82 rm imm =>
    show Ends R s (execSubRm8Imm8 op82 rm imm s)
    unfold execSubRm8Imm8
    exact ends_alu k s _ _ _ _ _ _
  | subRm16Imm16 rm imm =>
    show Ends R s (execSubRm16Imm16 rm imm s)
    unfold execSubRm16Imm16
    exact ends_alu k s _ _ _ _ _ _
  | subRm16Simm8 rm imm =>
    show Ends R s (execSubRm16Simm8 rm imm s)
    unfold execSubRm16Simm8
    exact ends_alu k s _ _ _ _ _ _
  | xorRmR w d reg rm =>
    show Ends R s (execXorRmR w d reg rm s)
    unfold execXorRmR
    exact ends_alu k s _ _ _ _ _ _
  | xorAlImm8 imm =>
    show Ends R s (execXorAlImm8 imm s)
    unfold execXorAlImm8
    exact ends_alu k s _ _ _ _ _ _
  | xorAxImm16 imm =>
    show Ends R s (execXorAxImm16 imm s)
    unfold execXorAxImm16
    exact ends_alu k s _ _ _ _ _ _
  | xorRm8Imm8 op82 rm imm =>
    show Ends R s (execXorRm8Imm8 op82 rm imm s)
    unfold execXorRm8Imm8
    exact ends_alu k s _ _ _ _ _ _
  | xorRm16Imm16 rm imm =>
    show Ends R s (execXorRm16Imm16 rm imm s)
    unfold execXorRm16Imm16
    exact ends_alu k s _ _ _ _ _ _
  | xorRm16Simm8 rm imm =>
    show Ends R s (execXorRm16Simm8 rm imm s)
    unfold execXorRm16Simm8
    exact ends_alu k s _ _ _ _ _ _
  | cmpRmR w d reg rm =>
    show Ends R s (execCmpRmR w d reg rm s)
    unfold execCmpRmR
    exact ends_alu k s _ _ _ _ _ _
  | cmpAlImm8 imm =>
    show Ends R s (execCmpAlImm8 imm s)
    unfold execCmpAlImm8
    exact ends_alu k s _ _ _ _ _ _
  | cmpAxImm16 imm =>
    show Ends R s (execCmpAxImm16 imm s)
    unfold execCmpAxImm16
    exact ends_alu k s _ _ _ _ _ _
  | cmpRm8Imm8 op82 rm imm =>
    show Ends R s (execCmpRm8Imm8 op82 rm imm s)
    unfold execCmpRm8Imm8
    exact ends_alu k s _ _ _ _ _ _
  | cmpRm16Imm16 rm imm =>
    show Ends R s (execCmpRm16Imm16 rm imm s)
    unfold execCmpRm16Imm16
    exact ends_alu k s _ _ _ _ _ _
  | cmpRm16Simm8 rm imm =>
    show Ends R s (execCmpRm16Simm8 rm imm s)
    unfold execCmpRm16Simm8
    exact ends_alu k s _ _ _ _ _ _
  | testRmR w reg rm =>
    show Ends R s (execTestRmR w reg rm s)
    unfold execTestRmR State.testValues
    exact ends_advance k (k.setFlags s _) _
  | testAlImm8 imm =>
    show Ends R s (execTestAlImm8 imm s)
    unfold execTestAlImm8 State.testValues
    exact ends_advance k (k.setFlags s _) _
  | testAxImm16 imm =>
    show Ends R s (execTestAxImm16 imm s)
    unfold execTestAxImm16 State.testValues
    exact ends_advance k (k.setFlags s _) _
  | movs w =>
    show Ends R s (execMovs w s)
    unfold execMovs
    exact ends_repeated k (fun u => ends_andThen k (ends_writeMem k u _ _ _) fun v => ends_next (k.trans (kept_stepSI k v _) (kept_stepDI k _ _))) s
  | cmps w =>
    show Ends R s (execCmps w s)
    unfold execCmps
    exact ends_compareRepeated k _ (fun u => kept_cmpsStep k u _) s
  | stos w =>
    show Ends R s (execStos w s)
    unfold execStos
    exact ends_repeated k (fun u => ends_andThen k (ends_writeMem k u _ _ _) fun v => ends_next (kept_stepDI k v _)) s
  | lods w =>
    show Ends R s (execLods w s)
    unfold execLods
    exact ends_repeated k (fun u => ends_next (k.trans (kept_writeReg k u _ _ _) (kept_stepSI k _ _))) s
  | scas w =>
    show Ends R s (execScas w s)
    unfold execScas
    exact ends_compareRepeated k _ (fun u => kept_stepDI k u _) s
  | segOverride sr => exact hs (.inl ⟨_, rfl⟩)
  | rep mode => exact hs (.inr ⟨_, rfl⟩)
  | lock =>
    show Ends R s (execLock s)
    unfold execLock
    exact ends_advance k (k.refl s) _
  | rolRm w count rm =>
    show Ends R s (execRolRm w count rm s)
    unfold execRolRm
    exact ends_shift k s _ _ _ _ _
  | rolRmImm8 w rm imm =>
    show Ends R s (execRolRmImm8 w rm imm s)
    unfold execRolRmImm8
    exact ends_shift k s _ _ _ _ _
  | rorRm w count rm =>
    show Ends R s (execRorRm w count rm s)
    unfold execRorRm
    exact ends_shift k s _ _ _ _ _
  | rorRmImm8 w rm imm =>
    show Ends R s (execRorRmImm8 w rm imm s)
    unfold execRorRmImm8
    exact ends_shift k s _ _ _ _ _
  | rclRm w count rm =>
    show Ends R s (execRclRm w count rm s)
    unfold execRclRm
    exact ends_shift k s _ _ _ _ _
  | rclRmImm8 w rm imm =>
    show Ends R s (execRclRmImm8 w rm imm s)
    unfold execRclRmImm8
    exact ends_shift k s _ _ _ _ _
  | rcrRm w count rm =>
    show Ends R s (execRcrRm w count rm s)
    unfold execRcrRm
    exact ends_shift k s _ _ _ _ _
  | rcrRmImm8 w rm imm =>
    show Ends R s (execRcrRmImm8 w rm imm s)
    unfold execRcrRmImm8
    exact ends_shift k s _ _ _ _ _
  | shlRm w count rm =>
    show Ends R s (execShlRm w count rm s)
    unfold execShlRm
    exact ends_shift k s _ _ _ _ _
  | shlRmImm8 w rm imm =>
    show Ends R s (execShlRmImm8 w rm imm s)
    unfold execShlRmImm8
    exact ends_shift k s _ _ _ _ _
  | shrRm w count rm =>
    show Ends R s (execShrRm w count rm s)
    unfold execShrRm
    exact ends_shift k s _ _ _ _ _
  | shrRmImm8 w rm imm =>
    show Ends R s (execShrRmImm8 w rm imm s)
    unfold execShrRmImm8
    exact ends_shift k s _ _ _ _ _
  | sarRm w count rm =>
    show Ends R s (execSarRm w count rm s)
    unfold execSarRm
    exact ends_shift k s _ _ _ _ _
  | sarRmImm8 w rm imm =>
    show Ends R s (execSarRmImm8 w rm imm s)
    unfold execSarRmImm8
    exact ends_shift k s _ _ _ _ _
  | loopne rel =>
    show Ends R s (execLoopne rel s)
    unfold execLoopne
    exact ends_branch k (k.setReg s _ _) _ _
  | loope rel =>
    show Ends R s (execLoope rel s)
    unfold execLoope
    exact ends_branch k (k.setReg s _ _) _ _
  | loop rel =>
    show Ends R s (execLoop rel s)
    unfold execLoop
    exact ends_branch k (k.setReg s _ _) _ _
  | jcxz rel =>
    show Ends R s (execJcxz rel s)
    unfold execJcxz
    exact ends_branch k (k.refl s) _ _
  | jmpRel8 rel =>
    show Ends R s (execJmpRel8 rel s)
    unfold execJmpRel8
    exact ends_setIP k (k.refl s) _
  | jmpRel16 rel =>
    show Ends R s (execJmpRel16 rel s)
    unfold execJmpRel16
    exact ends_setIP k (k.refl s) _
  | jmpPtr off seg =>
    show Ends R s (execJmpPtr off seg s)
    unfold execJmpPtr
    exact ends_setIP k (k.setReg s _ _) _
  | jmpRm16 rm =>
    show Ends R s (execJmpRm16 rm s)
    unfold execJmpRm16
    exact ends_setIP k (k.refl s) _
  | jmpM1616 m =>
    show Ends R s (execJmpM1616 m s)
    unfold execJmpM1616
    exact ends_setIP k (k.setReg s _ _) _
  | callRel16 rel =>
    show Ends R s (execCallRel16 rel s)
    unfold execCallRel16
    exact ends_withReturn _ fun _ => ends_andThen k (ends_push16 k s _) fun u => ends_setIP k (k.refl u) _
  | callPtr off seg =>
    show Ends R s (execCallPtr off seg s)
    unfold execCallPtr
    exact ends_callFar k s _ _ _
  | callRm16 rm =>
    show Ends R s (execCallRm16 rm s)
    unfold execCallRm16
    exact ends_withReturn _ fun _ => ends_andThen k (ends_push16 k s _) fun u => ends_setIP k (k.refl u) _
  | callM1616 m =>
    show Ends R s (execCallM1616 m s)
    unfold execCallM1616
    exact ends_callFar k s _ _ _
  | ret =>
    show Ends R s (execRet s)
    unfold execRet
    exact ends_setIP k (kept_pop16 k s) _
  | retImm16 imm =>
    show Ends R s (execRetImm16 imm s)
    unfold execRetImm16
    exact ends_setIP k (k.trans (kept_pop16 k s) (k.setReg _ _ _)) _
  | retf =>
    show Ends R s (execRetf s)
    unfold execRetf
    exact ends_setIP k (k.trans (kept_pop16 k s) (k.trans (kept_pop16 k _) (k.setReg _ _ _))) _
  | retfImm16 imm =>
    show Ends R s (execRetfImm16 imm s)
    unfold execRetfImm16
    exact ends_setIP k (k.trans (kept_pop16 k s) (k.trans (kept_pop16 k _) (k.trans (k.setReg _ _ _) (k.setReg _ _ _)))) _
  | int vector =>
    show Ends R s (execInt vector s)
    unfold execInt
    exact ends_interrupt k s _ _
  | int3 =>
    show Ends R s (execInt3 s)
    unfold execInt3
    exact ends_interrupt k s _ _
  | into =>
    show Ends R s (execInto s)
    unfold execInto
    exact ends_ite (fun _ => ends_interrupt k s _ _) fun _ => ends_advance k (k.refl s) _
  | iret =>
    show Ends R s (execIret s)
    unfold execIret
    exact ends_interruptReturn k s
  | daa =>
    show Ends R s (execDaa s)
    unfold execDaa
    exact ends_advance k (k.trans (kept_setReg8 k s _ _) (k.setFlags _ _)) _
  | das =>
    show Ends R s (execDas s)
    unfold execDas
    exact ends_advance k (k.trans (kept_setReg8 k s _ _) (k.setFlags _ _)) _
  | aaa =>
    show Ends R s (execAaa s)
    unfold execAaa
    exact ends_asciiAdjust k s _
  | aas =>
    show Ends R s (execAas s)
    unfold execAas
    exact ends_asciiAdjust k s _
  | aam base =>
    show Ends R s (execAam base s)
    unfold execAam
    exact ends_ite (fun _ => ends_deliver k s _) fun _ =>
      ends_advance k (k.trans (kept_setReg8 k s _ _) (k.trans (kept_setReg8 k _ _ _) (k.setFlags _ _))) _
  | aad base =>
    show Ends R s (execAad base s)
    unfold execAad
    exact ends_advance k (k.trans (kept_setReg8 k s _ _) (k.trans (kept_setReg8 k _ _ _) (k.setFlags _ _))) _
  | inAccImm8 w port =>
    show Ends R s (execInAccImm8 w port s)
    unfold execInAccImm8
    exact ends_advance k (kept_portRead k (hp (.inl ⟨_, _, rfl⟩)) s _ _) _
  | inAccDx w =>
    show Ends R s (execInAccDx w s)
    unfold execInAccDx
    exact ends_advance k (kept_portRead k (hp (.inr (.inl ⟨_, rfl⟩))) s _ _) _
  | outImm8Acc w port =>
    show Ends R s (execOutImm8Acc w port s)
    unfold execOutImm8Acc
    exact ends_advance k (kept_portWrite k (hp (.inr (.inr (.inl ⟨_, _, rfl⟩)))) s _ _ _) _
  | outDxAcc w =>
    show Ends R s (execOutDxAcc w s)
    unfold execOutDxAcc
    exact ends_advance k (kept_portWrite k (hp (.inr (.inr (.inr ⟨_, rfl⟩)))) s _ _ _) _
  | clc =>
    show Ends R s (execClc s)
    unfold execClc
    exact ends_advance k (k.setFlags s _) _
  | stc =>
    show Ends R s (execStc s)
    unfold execStc
    exact ends_advance k (k.setFlags s _) _
  | cli =>
    show Ends R s (execCli s)
    unfold execCli
    exact ends_advance k (k.setFlags s _) _
  | sti =>
    show Ends R s (execSti s)
    unfold execSti
    exact ends_advance k (k.setFlags s _) _
  | cld =>
    show Ends R s (execCld s)
    unfold execCld
    exact ends_advance k (k.setFlags s _) _
  | std =>
    show Ends R s (execStd s)
    unfold execStd
    exact ends_advance k (k.setFlags s _) _
  | cmc =>
    show Ends R s (execCmc s)
    unfold execCmc
    exact ends_advance k (k.setFlags s _) _
  | hlt =>
    show Ends R s (execHlt s)
    unfold execHlt
    exact ends_advance k (k.refl s) _
  | wait =>
    show Ends R s (execWait s)
    unfold execWait
    exact ends_advance k (k.refl s) _
  | esc x reg rm =>
    show Ends R s (execEsc x reg rm s)
    unfold execEsc
    exact ends_advance k (k.refl s) _
  | putchar =>
    show Ends R s (execPutchar s)
    unfold execPutchar
    exact ends_advance k (hh (.inl rfl) s _) _
  | getTime =>
    show Ends R s (execGetTime s)
    unfold execGetTime
    exact ends_trans k (hh (.inr (.inl rfl)) s _) (ends_andThen k (ends_writeBytes k _ _ _ _ _) fun t =>
      ends_andThen k (ends_writeBytes k t _ _ _ _) fun u => ends_advance k (k.refl u) _)
  | diskRead =>
    show Ends R s (execDiskRead s)
    unfold execDiskRead
    exact ends_trans k (hh (.inr (.inr (.inl rfl))) s _) (ends_andThen k (ends_writeBytes k _ _ _ _ _) fun t =>
      ends_advance k (kept_setReg8 k t _ _) _)
  | diskWrite =>
    show Ends R s (execDiskWrite s)
    unfold execDiskWrite
    exact ends_advance k (k.trans (hh (.inr (.inr (.inr rfl))) s _) (kept_setReg8 k _ _ _)) _
  | reserved0F sub =>
    show Ends R s (execReserved0F sub s)
    unfold execReserved0F
    exact ends_refused _
  | reserved60to6F x =>
    show Ends R s (execReserved60to6F x s)
    unfold execReserved60to6F
    exact ends_refused _
  | reserved8C m =>
    show Ends R s (execReserved8C m s)
    unfold execReserved8C
    exact ends_refused _
  | reserved8D reg rm =>
    show Ends R s (execReserved8D reg rm s)
    unfold execReserved8D
    exact ends_refused _
  | reserved8E m =>
    show Ends R s (execReserved8E m s)
    unfold execReserved8E
    exact ends_refused _
  | reserved8F m =>
    show Ends R s (execReserved8F m s)
    unfold execReserved8F
    exact ends_refused _
  | reservedC0C1 w mod rm =>
    show Ends R s (execReservedC0C1 w mod rm s)
    unfold execReservedC0C1
    exact ends_refused _
  | reservedC4 reg rm =>
    show Ends R s (execReservedC4 reg rm s)
    unfold execReservedC4
    exact ends_refused _
  | reservedC5 reg rm =>
    show Ends R s (execReservedC5 reg rm s)
    unfold execReservedC5
    exact ends_refused _
  | reservedC6 m =>
    show Ends R s (execReservedC6 m s)
    unfold execReservedC6
    exact ends_refused _
  | reservedC7 m =>
    show Ends R s (execReservedC7 m s)
    unfold execReservedC7
    exact ends_refused _
  | reservedC8C9 x =>
    show Ends R s (execReservedC8C9 x s)
    unfold execReservedC8C9
    exact ends_refused _
  | reservedD0toD3 w count mod rm =>
    show Ends R s (execReservedD0toD3 w count mod rm s)
    unfold execReservedD0toD3
    exact ends_refused _
  | reservedD6 =>
    show Ends R s (execReservedD6 s)
    unfold execReservedD6
    exact ends_refused _
  | reservedF1 =>
    show Ends R s (execReservedF1 s)
    unfold execReservedF1
    exact ends_refused _
  | reservedF6F7 w mod rm =>
    show Ends R s (execReservedF6F7 w mod rm s)
    unfold execReservedF6F7
    exact ends_refused _
  | reservedFE m =>
    show Ends R s (execReservedFE m s)
    unfold execReservedFE
    exact ends_refused _
  | reservedFF3 rm =>
    show Ends R s (execReservedFF3 rm s)
    unfold execReservedFF3
    exact ends_refused _
  | reservedFF5 rm =>
    show Ends R s (execReservedFF5 rm s)
    unfold execReservedFF5
    exact ends_refused _
  | reservedFF7 mod rm =>
    show Ends R s (execReservedFF7 mod rm s)
    unfold execReservedFF7
    exact ends_refused _

end

/-! ### Parts of the state that no elementary update reaches -/

/-- A part of the state that depends on neither registers, flags, memory, `IP` nor draws is kept. -/
theorem kept_part {α : Type} (f : State → α)
    (hf : ∀ (s : State) (g : Regs) (x : Flags) (m : Memory) (ip : Word) (d : Nat),
      f { s with regs := g, flags := x, mem := m, IP := ip, draws := d } = f s) :
    Kept fun s t => f t = f s where
  refl _ := rfl
  trans h k := k.trans h
  setReg s r v := hf s (s.regs.set r v) s.flags s.mem s.IP s.draws
  setFlags s x := hf s s.regs x s.mem s.IP s.draws
  putByte s a v _ := by
    unfold State.putByte
    split
    · exact hf s _ s.flags s.mem s.IP s.draws
    · rfl
    · exact hf s _ s.flags s.mem s.IP s.draws
    · exact hf s s.regs _ s.mem s.IP s.draws
    · exact hf s s.regs s.flags _ s.IP s.draws
  setIP s v := hf s s.regs s.flags s.mem v s.draws
  nextDraw s := hf s s.regs s.flags s.mem s.IP (s.draws + 1)

/-- A part of the state that depends on neither the ports, the device, memory nor draws is kept over the updates of `Ports`. -/
theorem keptPorts_part {α : Type} (f : State → α)
    (hf : ∀ (s : State) (m p : Memory) (x : List Byte) (d n : Nat),
      f { s with mem := m, ports := p, specialPorts := x, portDevice := d, draws := n } = f s) :
    KeptPorts fun s t => f t = f s where
  setPort s p v := hf s s.mem (s.setPort p v).ports (s.setPort p v).specialPorts s.portDevice s.draws
  deviceCalled s w p v := hf s (s.deviceMem w p v) s.ports s.specialPorts (s.deviceCalled w p v).portDevice (s.draws + 1)

/-- What a segment override prefix answers (44_string_prefix R261). -/
theorem exec_segOverride_eq_next {sr : SReg} {s t : State} (h : exec (.segOverride sr) s = .next t) :
    t = { s with segOvrCnt := 2, segOvrReg := sr, repCnt := extendCount s.repCnt, IP := s.IP + 1#16 } := by
  have h' : State.advance { s with segOvrCnt := 2, segOvrReg := sr, repCnt := extendCount s.repCnt } 1 = .next t := h
  exact (State.advance_eq_next.1 h').2

/-- What a repeat prefix answers (44_string_prefix R262). -/
theorem exec_rep_eq_next {mode : RepMode} {s t : State} (h : exec (.rep mode) s = .next t) :
    t = { s with repCnt := 2, repMode := mode, segOvrCnt := extendCount s.segOvrCnt, IP := s.IP + 1#16 } := by
  have h' : State.advance { s with repCnt := 2, repMode := mode, segOvrCnt := extendCount s.segOvrCnt } 1 = .next t := h
  exact (State.advance_eq_next.1 h').2

end Sys2Proof.Machine
end

