-- ==== Sys2Proof/Laws/Launch.lean ====
section
/-! SUPPORT. What storing a list of bytes does, and with it the load of a boot image. -/

namespace Sys2Proof.Machine

variable {s : State} {a : Addr} {bs : List Byte}

theorem State.putBytes_IP (s : State) (a : Addr) (bs : List Byte) : (s.putBytes a bs).IP = s.IP := by
  induction bs generalizing s a with
  | nil => rfl
  | cons b bs ih => rw [State.putBytes, ih, State.putByte_IP]

theorem State.putBytes_mem_wf (hm : s.mem.wf memSize = true) : (s.putBytes a bs).mem.wf memSize = true := by
  induction bs generalizing s a with
  | nil => exact hm
  | cons b bs ih => exact ih (State.putByte_mem_wf hm)

/-- Addresses fewer than 2^20 apart are different. -/
theorem add_ofNat_ne (a : Addr) {j k : Nat} (hj : j < 2 ^ 20) (hk : k < 2 ^ 20) (h : j ≠ k) :
    a + BitVec.ofNat 20 j ≠ a + BitVec.ofNat 20 k := by
  intro e
  have := congrArg BitVec.toNat e
  simp only [BitVec.toNat_add, BitVec.toNat_ofNat] at this
  omega

theorem add_ofNat_succ (a : Addr) (k : Nat) : a + BitVec.ofNat 20 (k + 1) = a + 1#20 + BitVec.ofNat 20 k := by
  rw [BitVec.add_assoc, Nat.add_comm, BitVec.ofNat_add]

theorem mem_bytesFrom {x : Addr} {n : Nat} : x ∈ bytesFrom a n ↔ ∃ k < n, a + BitVec.ofNat 20 k = x := by
  simp [bytesFrom]

theorem bytesFrom_succ (a : Addr) (n : Nat) : bytesFrom a (n + 1) = a :: bytesFrom (a + 1#20) n := by
  simp only [bytesFrom, List.range_succ_eq_map, List.map_cons, List.map_map]
  refine congrArg₂ _ (by simp) (List.map_congr_left fun k _ => ?_)
  exact add_ofNat_succ a k

/-- Only the bytes stored to change. -/
theorem frame_putBytes (hm : s.mem.wf memSize = true) : Frame s (s.putBytes a bs) (bytesFrom a bs.length) [] := by
  induction bs generalizing s a with
  | nil => exact Frame.refl s
  | cons b bs ih =>
    rw [List.length_cons, bytesFrom_succ]
    exact ((frame_putByte a b hm).trans (ih (State.putByte_mem_wf hm))).mono (by simp) (by simp)

/-- Ordinary memory holds the bytes stored there, where they are fewer than the address space has. -/
theorem State.readByte_putBytes (hm : s.mem.wf memSize = true) (hl : bs.length ≤ 2 ^ 20)
    (hp : ∀ x ∈ bytesFrom a bs.length, cellAt x = .plain) {k : Nat} {b : Byte} (hb : bs[k]? = some b) :
    (s.putBytes a bs).readByte (a + BitVec.ofNat 20 k) = b := by
  induction bs generalizing s a k with
  | nil => simp at hb
  | cons c bs ih =>
    rw [List.length_cons] at hl hp
    rw [bytesFrom_succ] at hp
    cases k with
    | zero =>
      obtain rfl : c = b := by simpa using hb
      have hn : a ∉ bytesFrom (a + 1#20) bs.length := by
        rw [mem_bytesFrom]
        rintro ⟨j, hj, e⟩
        rw [← add_ofNat_succ] at e
        exact add_ofNat_ne a (by omega) (Nat.two_pow_pos 20) (Nat.succ_ne_zero j) (e.trans (by simp))
      have h := (frame_putBytes (bs := bs) (a := a + 1#20) (State.putByte_mem_wf (a := a) (v := c) hm)).1 a hn (by simp)
      rw [BitVec.add_zero, State.putBytes, h]
      have hc := hp a (by simp)
      exact State.readByte_putByte_same hm (canStoreByte_plain hc) (by simp [hc])
    | succ k =>
      rw [add_ofNat_succ]
      exact ih (State.putByte_mem_wf hm) (by omega) (fun x hx => hp x (by simp [hx])) (by simpa using hb)

/-! ### The boot image -/

theorem bootAddr_eq : bootAddr = 0xF0100 := by decide

/-- The boot image window is ordinary memory: it begins above the register page and does not reach the end of memory. -/
theorem cellAt_bootWindow {x : Addr} {n : Nat} (hn : n ≤ bootImageMax) (h : x ∈ bytesFrom bootAddr n) : cellAt x = .plain := by
  obtain ⟨k, hk, rfl⟩ := mem_bytesFrom.1 h
  refine if_neg ?_
  unfold bootImageMax at hn
  rw [bootAddr_eq]
  have : ((0xF0100 : Addr) + BitVec.ofNat 20 k - Config.regsBase).toNat = 0x100 + k := by
    simp only [Config.regsBase, BitVec.toNat_sub, BitVec.toNat_add, BitVec.toNat_ofNat, BitVec.ofNat_eq_ofNat]
    omega
  omega

/-- The image stands in memory, cut at 0xFF00 bytes. -/
theorem State.readByte_bootLoad {image : List Byte} (hm : s.mem.wf memSize = true) {k : Nat} {b : Byte} (hk : k < bootImageMax)
    (hb : image[k]? = some b) : (s.bootLoad image).readByte (bootAddr + BitVec.ofNat 20 k) = b := by
  have hl : (image.take bootImageMax).length ≤ bootImageMax := List.length_take_le _ _
  refine State.readByte_putBytes (s := s.bootContext) hm (hl.trans (by decide)) (fun x hx => cellAt_bootWindow hl hx) ?_
  rw [List.getElem?_take_of_lt hk, hb]

/-- Without an image the launch state is `State.reset`. -/
theorem State.launch_nil : State.launch [] = State.reset := rfl

end Sys2Proof.Machine
end

