-- ==== Sys2Proof/Laws/PerInstr.lean ====
section
/-! SUPPORT. Statements made per instruction. Family `EncodedLength`: the encoder gives as many bytes as `Instr.length` says, the
`L` of 30_encoding R90 and R98. -/

namespace Sys2Proof.Laws

@[simp] theorem length_wordBytes (v : Word) : (wordBytes v).length = 2 := rfl

@[simp] theorem length_dispBytes (m : MemOperand) : m.dispBytes.length = m.dispLen := by
  cases m <;> rfl

@[simp] theorem length_rmBytes (reg : RegNum) (rm : RM) : (rmBytes reg rm).length = 1 + rm.dispLen := by
  cases rm with
  | reg r => rfl
  | mem m => simp [rmBytes, RM.dispLen, Nat.add_comm]

theorem length_rm (b : Byte) (reg : RegNum) (rm : RM) : (b :: rmBytes reg rm).length = 2 + rm.dispLen := by
  simp; omega

theorem length_rm_byte (b : Byte) (reg : RegNum) (rm : RM) (imm : Byte) :
    (b :: (rmBytes reg rm ++ [imm])).length = 3 + rm.dispLen := by
  simp; omega

theorem length_rm_word (b : Byte) (reg : RegNum) (rm : RM) (imm : Word) :
    (b :: (rmBytes reg rm ++ wordBytes imm)).length = 4 + rm.dispLen := by
  simp; omega

/-- The encoder gives as many bytes as `Instr.length` says. -/
def EncodedLength.Statement (i : Instr) : Prop := i.wf = true → (encode i).length = i.length

namespace EncodedLength

theorem jo (rel : Byte) : Statement (.jo rel) := fun _ => rfl

theorem jno (rel : Byte) : Statement (.jno rel) := fun _ => rfl

theorem jb (rel : Byte) : Statement (.jb rel) := fun _ => rfl

theorem jae (rel : Byte) : Statement (.jae rel) := fun _ => rfl

theorem je (rel : Byte) : Statement (.je rel) := fun _ => rfl

theorem jne (rel : Byte) : Statement (.jne rel) := fun _ => rfl

theorem jbe (rel : Byte) : Statement (.jbe rel) := fun _ => rfl

theorem ja (rel : Byte) : Statement (.ja rel) := fun _ => rfl

theorem js (rel : Byte) : Statement (.js rel) := fun _ => rfl

theorem jns (rel : Byte) : Statement (.jns rel) := fun _ => rfl

theorem jp (rel : Byte) : Statement (.jp rel) := fun _ => rfl

theorem jnp (rel : Byte) : Statement (.jnp rel) := fun _ => rfl

theorem jl (rel : Byte) : Statement (.jl rel) := fun _ => rfl

theorem jge (rel : Byte) : Statement (.jge rel) := fun _ => rfl

theorem jle (rel : Byte) : Statement (.jle rel) := fun _ => rfl

theorem jg (rel : Byte) : Statement (.jg rel) := fun _ => rfl

theorem movRmR (w : Width) (reg : RegNum) (rm : RM) : Statement (.movRmR w reg rm) := fun _ => length_rm _ _ _

theorem movRRm (w : Width) (reg : RegNum) (rm : RM) : Statement (.movRRm w reg rm) := fun _ => length_rm _ _ _

theorem movRm8Imm8 (rm : RM) (imm : Byte) : Statement (.movRm8Imm8 rm imm) := fun _ => length_rm_byte _ _ _ _

theorem movRm16Imm16 (rm : RM) (imm : Word) : Statement (.movRm16Imm16 rm imm) := fun _ => length_rm_word _ _ _ _

theorem movR8Imm8 (r : RegNum) (imm : Byte) : Statement (.movR8Imm8 r imm) := fun _ => rfl

theorem movR16Imm16 (r : RegNum) (imm : Word) : Statement (.movR16Imm16 r imm) := fun _ => rfl

theorem movAccMoffs (w : Width) (addr : Word) : Statement (.movAccMoffs w addr) := fun _ => rfl

theorem movMoffsAcc (w : Width) (addr : Word) : Statement (.movMoffsAcc w addr) := fun _ => rfl

theorem movRm16Sreg (sr : SReg) (rm : RM) : Statement (.movRm16Sreg sr rm) := fun _ => length_rm _ _ _

theorem movSregRm16 (sr : SReg) (rm : RM) : Statement (.movSregRm16 sr rm) := fun _ => length_rm _ _ _

theorem pushR16 (r : RegNum) : Statement (.pushR16 r) := fun _ => rfl

theorem popR16 (r : RegNum) : Statement (.popR16 r) := fun _ => rfl

theorem pushSreg (sr : SReg) : Statement (.pushSreg sr) := fun _ => rfl

theorem popEs : Statement (.popEs) := fun _ => rfl

theorem popSs : Statement (.popSs) := fun _ => rfl

theorem popDs : Statement (.popDs) := fun _ => rfl

theorem pushRm16 (rm : RM) : Statement (.pushRm16 rm) := fun _ => length_rm _ _ _

theorem popRm16 (rm : RM) : Statement (.popRm16 rm) := fun _ => length_rm _ _ _

theorem pushf : Statement (.pushf) := fun _ => rfl

theorem popf : Statement (.popf) := fun _ => rfl

theorem lahf : Statement (.lahf) := fun _ => rfl

theorem sahf : Statement (.sahf) := fun _ => rfl

theorem xchgAxR16 (r : RegNum) : Statement (.xchgAxR16 r) := fun _ => rfl

theorem nop : Statement (.nop) := fun _ => rfl

theorem xchgRmR (w : Width) (reg : RegNum) (rm : RM) : Statement (.xchgRmR w reg rm) := fun _ => length_rm _ _ _

theorem lea (reg : RegNum) (m : MemOperand) : Statement (.lea reg m) := fun _ => length_rm _ _ _

theorem les (reg : RegNum) (m : MemOperand) : Statement (.les reg m) := fun _ => length_rm _ _ _

theorem lds (reg : RegNum) (m : MemOperand) : Statement (.lds reg m) := fun _ => length_rm _ _ _

theorem xlat : Statement (.xlat) := fun _ => rfl

theorem cbw : Statement (.cbw) := fun _ => rfl

theorem cwd : Statement (.cwd) := fun _ => rfl

theorem incR16 (r : RegNum) : Statement (.incR16 r) := fun _ => rfl

theorem decR16 (r : RegNum) : Statement (.decR16 r) := fun _ => rfl

theorem incRm (w : Width) (rm : RM) : Statement (.incRm w rm) := fun _ => length_rm _ _ _

theorem decRm (w : Width) (rm : RM) : Statement (.decRm w rm) := fun _ => length_rm _ _ _

theorem testRm8Imm8 (rm : RM) (imm : Byte) : Statement (.testRm8Imm8 rm imm) := fun _ => length_rm_byte _ _ _ _

theorem testRm16Imm16 (rm : RM) (imm : Word) : Statement (.testRm16Imm16 rm imm) := fun _ => length_rm_word _ _ _ _

theorem notRm (w : Width) (rm : RM) : Statement (.notRm w rm) := fun _ => length_rm _ _ _

theorem negRm (w : Width) (rm : RM) : Statement (.negRm w rm) := fun _ => length_rm _ _ _

theorem mulRm (w : Width) (rm : RM) : Statement (.mulRm w rm) := fun _ => length_rm _ _ _

theorem imulRm (w : Width) (rm : RM) : Statement (.imulRm w rm) := fun _ => length_rm _ _ _

theorem divRm (w : Width) (rm : RM) : Statement (.divRm w rm) := fun _ => length_rm _ _ _

theorem idivRm (w : Width) (rm : RM) : Statement (.idivRm w rm) := fun _ => length_rm _ _ _

theorem addRmR (w : Width) (d : Direction) (reg : RegNum) (rm : RM) : Statement (.addRmR w d reg rm) := fun _ => length_rm _ _ _

theorem addAlImm8 (imm : Byte) : Statement (.addAlImm8 imm) := fun _ => rfl

theorem addAxImm16 (imm : Word) : Statement (.addAxImm16 imm) := fun _ => rfl

theorem addRm8Imm8 (op82 : Bool) (rm : RM) (imm : Byte) : Statement (.addRm8Imm8 op82 rm imm) := fun _ => length_rm_byte _ _ _ _

theorem addRm16Imm16 (rm : RM) (imm : Word) : Statement (.addRm16Imm16 rm imm) := fun _ => length_rm_word _ _ _ _

theorem addRm16Simm8 (rm : RM) (imm : Byte) : Statement (.addRm16Simm8 rm imm) := fun _ => length_rm_byte _ _ _ _

theorem orRmR (w : Width) (d : Direction) (reg : RegNum) (rm : RM) : Statement (.orRmR w d reg rm) := fun _ => length_rm _ _ _

theorem orAlImm8 (imm : Byte) : Statement (.orAlImm8 imm) := fun _ => rfl

theorem orAxImm16 (imm : Word) : Statement (.orAxImm16 imm) := fun _ => rfl

theorem orRm8Imm8 (op82 : Bool) (rm : RM) (imm : Byte) : Statement (.orRm8Imm8 op82 rm imm) := fun _ => length_rm_byte _ _ _ _

theorem orRm16Imm16 (rm : RM) (imm : Word) : Statement (.orRm16Imm16 rm imm) := fun _ => length_rm_word _ _ _ _

theorem orRm16Simm8 (rm : RM) (imm : Byte) : Statement (.orRm16Simm8 rm imm) := fun _ => length_rm_byte _ _ _ _

theorem adcRmR (w : Width) (d : Direction) (reg : RegNum) (rm : RM) : Statement (.adcRmR w d reg rm) := fun _ => length_rm _ _ _

theorem adcAlImm8 (imm : Byte) : Statement (.adcAlImm8 imm) := fun _ => rfl

theorem adcAxImm16 (imm : Word) : Statement (.adcAxImm16 imm) := fun _ => rfl

theorem adcRm8Imm8 (op82 : Bool) (rm : RM) (imm : Byte) : Statement (.adcRm8Imm8 op82 rm imm) := fun _ => length_rm_byte _ _ _ _

theorem adcRm16Imm16 (rm : RM) (imm : Word) : Statement (.adcRm16Imm16 rm imm) := fun _ => length_rm_word _ _ _ _

theorem adcRm16Simm8 (rm : RM) (imm : Byte) : Statement (.adcRm16Simm8 rm imm) := fun _ => length_rm_byte _ _ _ _

theorem sbbRmR (w : Width) (d : Direction) (reg : RegNum) (rm : RM) : Statement (.sbbRmR w d reg rm) := fun _ => length_rm _ _ _

theorem sbbAlImm8 (imm : Byte) : Statement (.sbbAlImm8 imm) := fun _ => rfl

theorem sbbAxImm16 (imm : Word) : Statement (.sbbAxImm16 imm) := fun _ => rfl

theorem sbbRm8Imm8 (op82 : Bool) (rm : RM) (imm : Byte) : Statement (.sbbRm8Imm8 op82 rm imm) := fun _ => length_rm_byte _ _ _ _

theorem sbbRm16Imm16 (rm : RM) (imm : Word) : Statement (.sbbRm16Imm16 rm imm) := fun _ => length_rm_word _ _ _ _

theorem sbbRm16Simm8 (rm : RM) (imm : Byte) : Statement (.sbbRm16Simm8 rm imm) := fun _ => length_rm_byte _ _ _ _

theorem andRmR (w : Width) (d : Direction) (reg : RegNum) (rm : RM) : Statement (.andRmR w d reg rm) := fun _ => length_rm _ _ _

theorem andAlImm8 (imm : Byte) : Statement (.andAlImm8 imm) := fun _ => rfl

theorem andAxImm16 (imm : Word) : Statement (.andAxImm16 imm) := fun _ => rfl

theorem andRm8Imm8 (op82 : Bool) (rm : RM) (imm : Byte) : Statement (.andRm8Imm8 op82 rm imm) := fun _ => length_rm_byte _ _ _ _

theorem andRm16Imm16 (rm : RM) (imm : Word) : Statement (.andRm16Imm16 rm imm) := fun _ => length_rm_word _ _ _ _

theorem andRm16Simm8 (rm : RM) (imm : Byte) : Statement (.andRm16Simm8 rm imm) := fun _ => length_rm_byte _ _ _ _

theorem subRmR (w : Width) (d : Direction) (reg : RegNum) (rm : RM) : Statement (.subRmR w d reg rm) := fun _ => length_rm _ _ _

theorem subAlImm8 (imm : Byte) : Statement (.subAlImm8 imm) := fun _ => rfl

theorem subAxImm16 (imm : Word) : Statement (.subAxImm16 imm) := fun _ => rfl

theorem subRm8Imm8 (op82 : Bool) (rm : RM) (imm : Byte) : Statement (.subRm8Imm8 op82 rm imm) := fun _ => length_rm_byte _ _ _ _

theorem subRm16Imm16 (rm : RM) (imm : Word) : Statement (.subRm16Imm16 rm imm) := fun _ => length_rm_word _ _ _ _

theorem subRm16Simm8 (rm : RM) (imm : Byte) : Statement (.subRm16Simm8 rm imm) := fun _ => length_rm_byte _ _ _ _

theorem xorRmR (w : Width) (d : Direction) (reg : RegNum) (rm : RM) : Statement (.xorRmR w d reg rm) := fun _ => length_rm _ _ _

theorem xorAlImm8 (imm : Byte) : Statement (.xorAlImm8 imm) := fun _ => rfl

theorem xorAxImm16 (imm : Word) : Statement (.xorAxImm16 imm) := fun _ => rfl

theorem xorRm8Imm8 (op82 : Bool) (rm : RM) (imm : Byte) : Statement (.xorRm8Imm8 op82 rm imm) := fun _ => length_rm_byte _ _ _ _

theorem xorRm16Imm16 (rm : RM) (imm : Word) : Statement (.xorRm16Imm16 rm imm) := fun _ => length_rm_word _ _ _ _

theorem xorRm16Simm8 (rm : RM) (imm : Byte) : Statement (.xorRm16Simm8 rm imm) := fun _ => length_rm_byte _ _ _ _

theorem cmpRmR (w : Width) (d : Direction) (reg : RegNum) (rm : RM) : Statement (.cmpRmR w d reg rm) := fun _ => length_rm _ _ _

theorem cmpAlImm8 (imm : Byte) : Statement (.cmpAlImm8 imm) := fun _ => rfl

theorem cmpAxImm16 (imm : Word) : Statement (.cmpAxImm16 imm) := fun _ => rfl

theorem cmpRm8Imm8 (op82 : Bool) (rm : RM) (imm : Byte) : Statement (.cmpRm8Imm8 op82 rm imm) := fun _ => length_rm_byte _ _ _ _

theorem cmpRm16Imm16 (rm : RM) (imm : Word) : Statement (.cmpRm16Imm16 rm imm) := fun _ => length_rm_word _ _ _ _

theorem cmpRm16Simm8 (rm : RM) (imm : Byte) : Statement (.cmpRm16Simm8 rm imm) := fun _ => length_rm_byte _ _ _ _

theorem testRmR (w : Width) (reg : RegNum) (rm : RM) : Statement (.testRmR w reg rm) := fun _ => length_rm _ _ _

theorem testAlImm8 (imm : Byte) : Statement (.testAlImm8 imm) := fun _ => rfl

theorem testAxImm16 (imm : Word) : Statement (.testAxImm16 imm) := fun _ => rfl

theorem movs (w : Width) : Statement (.movs w) := fun _ => rfl

theorem cmps (w : Width) : Statement (.cmps w) := fun _ => rfl

theorem stos (w : Width) : Statement (.stos w) := fun _ => rfl

theorem lods (w : Width) : Statement (.lods w) := fun _ => rfl

theorem scas (w : Width) : Statement (.scas w) := fun _ => rfl

theorem segOverride (sr : SReg) : Statement (.segOverride sr) := fun _ => rfl

theorem rep (mode : RepMode) : Statement (.rep mode) := fun _ => rfl

theorem lock : Statement (.lock) := fun _ => rfl

theorem rolRm (w : Width) (count : ShiftCount) (rm : RM) : Statement (.rolRm w count rm) := fun _ => length_rm _ _ _

theorem rolRmImm8 (w : Width) (rm : RM) (imm : Byte) : Statement (.rolRmImm8 w rm imm) := fun _ => length_rm_byte _ _ _ _

theorem rorRm (w : Width) (count : ShiftCount) (rm : RM) : Statement (.rorRm w count rm) := fun _ => length_rm _ _ _

theorem rorRmImm8 (w : Width) (rm : RM) (imm : Byte) : Statement (.rorRmImm8 w rm imm) := fun _ => length_rm_byte _ _ _ _

theorem rclRm (w : Width) (count : ShiftCount) (rm : RM) : Statement (.rclRm w count rm) := fun _ => length_rm _ _ _

theorem rclRmImm8 (w : Width) (rm : RM) (imm : Byte) : Statement (.rclRmImm8 w rm imm) := fun _ => length_rm_byte _ _ _ _

theorem rcrRm (w : Width) (count : ShiftCount) (rm : RM) : Statement (.rcrRm w count rm) := fun _ => length_rm _ _ _

theorem rcrRmImm8 (w : Width) (rm : RM) (imm : Byte) : Statement (.rcrRmImm8 w rm imm) := fun _ => length_rm_byte _ _ _ _

theorem shlRm (w : Width) (count : ShiftCount) (rm : RM) : Statement (.shlRm w count rm) := fun _ => length_rm _ _ _

theorem shlRmImm8 (w : Width) (rm : RM) (imm : Byte) : Statement (.shlRmImm8 w rm imm) := fun _ => length_rm_byte _ _ _ _

theorem shrRm (w : Width) (count : ShiftCount) (rm : RM) : Statement (.shrRm w count rm) := fun _ => length_rm _ _ _

theorem shrRmImm8 (w : Width) (rm : RM) (imm : Byte) : Statement (.shrRmImm8 w rm imm) := fun _ => length_rm_byte _ _ _ _

theorem sarRm (w : Width) (count : ShiftCount) (rm : RM) : Statement (.sarRm w count rm) := fun _ => length_rm _ _ _

theorem sarRmImm8 (w : Width) (rm : RM) (imm : Byte) : Statement (.sarRmImm8 w rm imm) := fun _ => length_rm_byte _ _ _ _

theorem loopne (rel : Byte) : Statement (.loopne rel) := fun _ => rfl

theorem loope (rel : Byte) : Statement (.loope rel) := fun _ => rfl

theorem loop (rel : Byte) : Statement (.loop rel) := fun _ => rfl

theorem jcxz (rel : Byte) : Statement (.jcxz rel) := fun _ => rfl

theorem jmpRel8 (rel : Byte) : Statement (.jmpRel8 rel) := fun _ => rfl

theorem jmpRel16 (rel : Word) : Statement (.jmpRel16 rel) := fun _ => rfl

theorem jmpPtr (off seg : Word) : Statement (.jmpPtr off seg) := fun _ => rfl

theorem jmpRm16 (rm : RM) : Statement (.jmpRm16 rm) := fun _ => length_rm _ _ _

theorem jmpM1616 (m : MemOperand) : Statement (.jmpM1616 m) := fun _ => length_rm _ _ _

theorem callRel16 (rel : Word) : Statement (.callRel16 rel) := fun _ => rfl

theorem callPtr (off seg : Word) : Statement (.callPtr off seg) := fun _ => rfl

theorem callRm16 (rm : RM) : Statement (.callRm16 rm) := fun _ => length_rm _ _ _

theorem callM1616 (m : MemOperand) : Statement (.callM1616 m) := fun _ => length_rm _ _ _

theorem ret : Statement (.ret) := fun _ => rfl

theorem retImm16 (imm : Word) : Statement (.retImm16 imm) := fun _ => rfl

theorem retf : Statement (.retf) := fun _ => rfl

theorem retfImm16 (imm : Word) : Statement (.retfImm16 imm) := fun _ => rfl

theorem int (vector : Byte) : Statement (.int vector) := fun _ => rfl

theorem int3 : Statement (.int3) := fun _ => rfl

theorem into : Statement (.into) := fun _ => rfl

theorem iret : Statement (.iret) := fun _ => rfl

theorem daa : Statement (.daa) := fun _ => rfl

theorem das : Statement (.das) := fun _ => rfl

theorem aaa : Statement (.aaa) := fun _ => rfl

theorem aas : Statement (.aas) := fun _ => rfl

theorem aam (base : Byte) : Statement (.aam base) := fun _ => rfl

theorem aad (base : Byte) : Statement (.aad base) := fun _ => rfl

theorem inAccImm8 (w : Width) (port : Byte) : Statement (.inAccImm8 w port) := fun _ => rfl

theorem inAccDx (w : Width) : Statement (.inAccDx w) := fun _ => rfl

theorem outImm8Acc (w : Width) (port : Byte) : Statement (.outImm8Acc w port) := fun _ => rfl

theorem outDxAcc (w : Width) : Statement (.outDxAcc w) := fun _ => rfl

theorem clc : Statement (.clc) := fun _ => rfl

theorem stc : Statement (.stc) := fun _ => rfl

theorem cli : Statement (.cli) := fun _ => rfl

theorem sti : Statement (.sti) := fun _ => rfl

theorem cld : Statement (.cld) := fun _ => rfl

theorem std : Statement (.std) := fun _ => rfl

theorem cmc : Statement (.cmc) := fun _ => rfl

theorem hlt : Statement (.hlt) := fun _ => rfl

theorem wait : Statement (.wait) := fun _ => rfl

theorem esc (x : Fin 8) (reg : RegNum) (rm : RM) : Statement (.esc x reg rm) := fun _ => length_rm _ _ _

theorem putchar : Statement (.putchar) := fun _ => rfl

theorem getTime : Statement (.getTime) := fun _ => rfl

theorem diskRead : Statement (.diskRead) := fun _ => rfl

theorem diskWrite : Statement (.diskWrite) := fun _ => rfl

theorem reserved0F (sub : Byte) : Statement (.reserved0F sub) := fun _ => rfl

theorem reserved60to6F (x : Fin 16) : Statement (.reserved60to6F x) := fun _ => rfl

theorem reserved8C (m : ModRM) : Statement (.reserved8C m) := fun _ => rfl

theorem reserved8D (reg rm : RegNum) : Statement (.reserved8D reg rm) := fun _ => rfl

theorem reserved8E (m : ModRM) : Statement (.reserved8E m) := fun _ => rfl

theorem reserved8F (m : ModRM) : Statement (.reserved8F m) := fun _ => rfl

theorem reservedC0C1 (w : Width) (mod : Fin 4) (rm : RegNum) : Statement (.reservedC0C1 w mod rm) := fun _ => rfl

theorem reservedC4 (reg rm : RegNum) : Statement (.reservedC4 reg rm) := fun _ => rfl

theorem reservedC5 (reg rm : RegNum) : Statement (.reservedC5 reg rm) := fun _ => rfl

theorem reservedC6 (m : ModRM) : Statement (.reservedC6 m) := fun _ => rfl

theorem reservedC7 (m : ModRM) : Statement (.reservedC7 m) := fun _ => rfl

theorem reservedC8C9 (x : Fin 2) : Statement (.reservedC8C9 x) := fun _ => rfl

theorem reservedD0toD3 (w : Width) (count : ShiftCount) (mod : Fin 4) (rm : RegNum) : Statement (.reservedD0toD3 w count mod rm) := fun _ => rfl

theorem reservedD6 : Statement (.reservedD6) := fun _ => rfl

theorem reservedF1 : Statement (.reservedF1) := fun _ => rfl

theorem reservedF6F7 (w : Width) (mod : Fin 4) (rm : RegNum) : Statement (.reservedF6F7 w mod rm) := fun _ => rfl

theorem reservedFE (m : ModRM) : Statement (.reservedFE m) := fun _ => rfl

theorem reservedFF3 (rm : RegNum) : Statement (.reservedFF3 rm) := fun _ => rfl

theorem reservedFF5 (rm : RegNum) : Statement (.reservedFF5 rm) := fun _ => rfl

theorem reservedFF7 (mod : Fin 4) (rm : RegNum) : Statement (.reservedFF7 mod rm) := fun _ => rfl

end EncodedLength

end Sys2Proof.Laws
end

