-- ==== Sys2Proof/Laws/Ports.lean ====
section
/-! SUPPORT. What the operations on `Ports` do, said once for each: reading and storing a port, and `PortDevice` acting. -/

namespace Sys2Proof.Machine

variable {s : State} {w : Width} {p q : Word} {v : Option Word} {b : Byte}

/-! ### Reading and storing a port -/

theorem isSpecialPort_iff : isSpecialPort p = true ↔ p ∈ Config.specialPorts := List.contains_iff_mem

theorem isSpecialPort_eq_false : isSpecialPort p = false ↔ p ∉ Config.specialPorts := by
  rw [← isSpecialPort_iff, Bool.not_eq_true]

theorem State.portByte_plain (h : p ∉ Config.specialPorts) : s.portByte p = s.ports.get p.toNat := by
  simp [State.portByte, isSpecialPort_eq_false.2 h]

theorem State.portByte_setPort_plain_same (hp : s.ports.wf portCount = true) (h : p ∉ Config.specialPorts) :
    (s.setPort p b).portByte p = b := by
  rw [State.portByte_plain h, State.setPort_ports, isSpecialPort_eq_false.2 h]
  exact Memory.get_set_same (lo := 0) hp

theorem State.portByte_setPort_other (hp : s.ports.wf portCount = true) (hq : q ≠ p) :
    (s.setPort p b).portByte q = s.portByte q := by
  unfold State.portByte
  split
  · rw [State.setPort_specialPorts, State.setPort_draws, State.setPort_portDevice]
    split
    · next h _ =>
      have hne : Config.specialPorts.idxOf p ≠ Config.specialPorts.idxOf q := fun e =>
        hq ((List.idxOf_inj (isSpecialPort_iff.1 h)).1 e.symm)
      rw [List.getD_eq_getElem?_getD, List.getElem?_set_ne hne, List.getD_eq_getElem?_getD]
    · rfl
  · rw [State.setPort_ports]
    split
    · rfl
    · exact Memory.get_set_other (lo := 0) hp fun e => hq (BitVec.eq_of_toNat_eq e)

theorem State.setPort_ports_wf (hp : s.ports.wf portCount = true) : (s.setPort p b).ports.wf portCount = true := by
  rw [State.setPort_ports]
  split
  · exact hp
  · exact Memory.wf_set hp p.isLt

theorem State.setPort_specialPorts_length : (s.setPort p b).specialPorts.length = s.specialPorts.length := by
  rw [State.setPort_specialPorts]
  split
  · exact List.length_set
  · rfl

/-- A store to a port lists no special port. -/
theorem State.mem_setPort_ports {c : Host.Cell} (h : c ∈ (s.setPort p b).ports) :
    c ∈ s.ports ∨ isSpecialPort (BitVec.ofNat 16 c.1) = false := by
  rw [State.setPort_ports] at h
  split at h
  · exact .inl h
  · next hs =>
    rcases Memory.mem_set h with rfl | h
    · exact .inr (by rw [BitVec.ofNat_toNat, BitVec.setWidth_eq]; simpa using hs)
    · exact .inl h

/-! ### A call of `PortDevice` -/

/-- Plain ports are not changed by `PortDevice` (60_exceptions R413). -/
theorem State.portByte_deviceCalled (h : q ∉ Config.specialPorts) : (s.deviceCalled w p v).portByte q = s.portByte q := by
  rw [State.portByte_plain h, State.portByte_plain h, State.deviceCalled_ports]

theorem reachesSpecial_eq_false (h : ∀ q ∈ portsOf w p, q ∉ Config.specialPorts) : reachesSpecial w p = false := by
  cases w
  · exact isSpecialPort_eq_false.2 (h p (by simp [portsOf]))
  · exact Bool.or_eq_false_iff.2 ⟨isSpecialPort_eq_false.2 (h p (by simp [portsOf])),
      isSpecialPort_eq_false.2 (h (p + 1#16) (by simp [portsOf]))⟩

/-- Where `PortDevice` does not act, a call of it is a draw and nothing else (10_state R30). -/
theorem State.deviceCalled_of_not_acts (h : s.deviceActsAt w p = false) : s.deviceCalled w p v = s.nextDraw := by
  have hc : s.deviceCells w p = [] := List.filter_eq_nil_iff.2 fun a _ => by simp [h]
  simp [State.deviceCalled, State.deviceMem, hc, h, State.nextDraw]

theorem cellAt_of_not_inRegisterPage {a : Addr} (h : inRegisterPage a = false) : cellAt a = .plain := by
  have : ¬(a - Config.regsBase).toNat < 256 := of_decide_eq_false h
  exact if_neg (by omega)

theorem State.cellAt_deviceCells {a : Addr} (h : a ∈ s.deviceCells w p) : cellAt a = .plain :=
  cellAt_of_not_inRegisterPage (by have := (List.mem_filter.1 h).2; simp at this; exact this.1)

/-- The updates of memory that `PortDevice` makes, one byte after another: the form is kept, no other byte changes, and nothing new is
listed but these bytes. -/
theorem Memory.foldl_set {g : Memory → Addr → Byte} {l : List Addr} {m : Memory} (hm : m.wf memSize = true) :
    (l.foldl (fun m a => m.set a.toNat (g m a)) m).wf memSize = true ∧
      (∀ a : Addr, a ∉ l → (l.foldl (fun m a => m.set a.toNat (g m a)) m).get a.toNat = m.get a.toNat) ∧
      ∀ c ∈ l.foldl (fun m a => m.set a.toNat (g m a)) m, c ∈ m ∨ ∃ a ∈ l, c.1 = a.toNat := by
  induction l generalizing m with
  | nil => exact ⟨hm, fun _ _ => rfl, fun _ h => .inl h⟩
  | cons x l ih =>
    obtain ⟨h1, h2, h3⟩ := ih (m := m.set x.toNat (g m x)) (Memory.wf_set hm x.isLt)
    refine ⟨h1, fun a ha => ?_, fun c hc => ?_⟩
    · rw [List.mem_cons, not_or] at ha
      exact (h2 a ha.2).trans (Memory.get_set_other (lo := 0) hm fun e => ha.1 (BitVec.eq_of_toNat_eq e))
    · rcases h3 c hc with h | ⟨a, ha, e⟩
      · rcases Memory.mem_set h with rfl | h
        · exact .inr ⟨x, by simp, rfl⟩
        · exact .inl h
      · exact .inr ⟨a, by simp [ha], e⟩

/-- What `PortDevice` does to memory. -/
theorem State.deviceMem_spec (hm : s.mem.wf memSize = true) :
    (s.deviceMem w p v).wf memSize = true ∧
      (∀ a : Addr, a ∉ s.deviceCells w p → (s.deviceMem w p v).get a.toNat = s.mem.get a.toNat) ∧
      ∀ c ∈ s.deviceMem w p v, c ∈ s.mem ∨ ∃ a ∈ s.deviceCells w p, c.1 = a.toNat :=
  Memory.foldl_set (g := fun m a => Config.deviceByte s.draws s.portDevice p (Width.isWord w) v a (m.get a.toNat)) hm

/-- What `PortDevice` lists in memory lies outside the register page. -/
theorem State.mem_deviceMem (hm : s.mem.wf memSize = true) {c : Host.Cell} (h : c ∈ s.deviceMem w p v) :
    c ∈ s.mem ∨ cellAt (BitVec.ofNat 20 c.1) = .plain := by
  rcases (State.deviceMem_spec hm).2.2 c h with h | ⟨a, ha, e⟩
  · exact .inl h
  · rw [e, BitVec.ofNat_toNat, BitVec.setWidth_eq]
    exact .inr (State.cellAt_deviceCells ha)

/-- `PortDevice` changes its private state and bytes of memory that it declares, and nothing else (60_exceptions R413). -/
theorem frame_deviceCalled (hm : s.mem.wf memSize = true) :
    FrameButDraws s ((s.deviceCalled w p v).withPortsOf s) (s.deviceCells w p) [] := by
  refine ⟨fun a ha _ => ?_, fun _ _ _ => rfl, fun _ _ _ => rfl, by simp [SameContext, State.withPortsOf]⟩
  cases e : cellAt a with
  | plain =>
    simp only [State.readByte, e]
    exact (State.deviceMem_spec hm).2.1 a ha
  | _ => simp only [State.readByte, e, State.withPortsOf, State.deviceCalled, State.reg] <;> rfl

/-! ### `PortRead` and `PortWrite` (20_memory R75) -/

@[simp] theorem State.portRead_IP (s : State) (w : Width) (p : Word) : (s.portRead w p).IP = s.IP := by cases w <;> rfl

@[simp] theorem State.portWrite_IP (s : State) (w : Width) (p : Word) (x : BitVec w.bits) : (s.portWrite w p x).IP = s.IP := by
  cases w <;> rfl

/-- Where no port of the access is special, `PortDevice` does not change what it reads. -/
theorem State.portValue_deviceCalled (h : ∀ q ∈ portsOf w p, q ∉ Config.specialPorts) :
    (s.deviceCalled w p v).portValue w p = s.portsAt w p := by
  cases w
  · exact State.portByte_deviceCalled (h p (by simp [portsOf]))
  · exact congrArg₂ (· ++ ·) (State.portByte_deviceCalled (h (p + 1#16) (by simp [portsOf])))
      (State.portByte_deviceCalled (h p (by simp [portsOf])))

/-- A store to ports leaves every other port. -/
theorem State.portByte_putPort_other (hp : s.ports.wf portCount = true) {x : BitVec w.bits} (hq : q ∉ portsOf w p) :
    (s.putPort w p x).portByte q = s.portByte q := by
  cases w
  · exact State.portByte_setPort_other hp (by simpa [portsOf] using hq)
  · simp only [portsOf, List.mem_cons, List.not_mem_nil, or_false, not_or] at hq
    exact (State.portByte_setPort_other (State.setPort_ports_wf hp) hq.2).trans (State.portByte_setPort_other hp hq.1)

/-- Ports that are not special hold what was stored there. -/
theorem State.portsAt_putPort_plain (hp : s.ports.wf portCount = true) {x : BitVec w.bits}
    (h : ∀ q ∈ portsOf w p, q ∉ Config.specialPorts) : (s.putPort w p x).portsAt w p = x := by
  cases w
  · exact State.portByte_setPort_plain_same hp (h p (by simp [portsOf]))
  · have h1 := State.setPort_ports_wf (p := p) (b := byteOf false x) hp
    have h2 : p ≠ p + 1#16 := by bv_omega
    refine (congrArg₂ (· ++ ·) (State.portByte_setPort_plain_same h1 (h (p + 1#16) (by simp [portsOf])))
      ((State.portByte_setPort_other h1 h2).trans (State.portByte_setPort_plain_same hp (h p (by simp [portsOf]))))).trans ?_
    exact byteOf_append_byteOf x

theorem State.putPort_ports_wf (hp : s.ports.wf portCount = true) {x : BitVec w.bits} :
    (s.putPort w p x).ports.wf portCount = true := by
  cases w
  · exact State.setPort_ports_wf hp
  · exact State.setPort_ports_wf (State.setPort_ports_wf hp)

/-- `IN` changes the accumulator and what `PortDevice` may change. -/
theorem frame_portRead (hm : s.mem.wf memSize = true) :
    FrameButDraws s ((s.portRead w p).withPortsOf s) (bytesAt w (regAddr w 0) ++ s.deviceCells w p) [] := by
  have h := (frame_deviceCalled (w := w) (p := p) (v := none) hm).trans
    (frame_writeReg { (s.deviceCalled w p none).withPortsOf s with draws := s.draws } w 0
      ((s.deviceCalled w p none).portValue w p))
  have e : State.writeReg { (s.deviceCalled w p none).withPortsOf s with draws := s.draws } w 0
      ((s.deviceCalled w p none).portValue w p) = { (s.portRead w p).withPortsOf s with draws := s.draws } := by
    cases w <;> rfl
  rw [e] at h
  exact h.mono (List.append_subset.2 ⟨List.subset_append_right _ _, List.subset_append_left _ _⟩) (by simp)

/-- `OUT` changes ports and what `PortDevice` may change. -/
theorem frame_portWrite {x : BitVec w.bits} (hm : s.mem.wf memSize = true) :
    FrameButDraws s ((s.portWrite w p x).withPortsOf s) (s.deviceCells w p) [] := by
  cases w <;> exact frame_deviceCalled (p := p) (v := some (x.setWidth 16)) hm

end Sys2Proof.Machine
end

