-- ==== Sys2Proof/Tests/Slice0.lean ====
section
/-! SUPPORT. Tests. The expected values are the spec's: the encodings of its rules for the decoder,
  the rows of 95_test_vectors.md and
96_test_vectors_programs.md for single steps; and for each statement with hypotheses a witness that meets them. -/

namespace Sys2Proof.Tests

set_option Elab.async false

open Sys2Proof.Machine

/-! ### WellFormed: an ill-formed term for each check -/

theorem test_wf_base_bp : RM.wf (.mem (.base .bp)) = false ∧ MemOperand.wf (.base .bp) = false := by decide

theorem test_wf_instructions :
    Instr.wf (.movRRm .word 0 (.mem (.base .bp))) = false ∧ Instr.wf (.lea 0 (.base .bp)) = false ∧
      Instr.wf (.xchgAxR16 0) = false ∧ Instr.wf (.reserved0F 0x03) = false ∧ Instr.wf (.reserved8C ⟨3, 3, 0⟩) = false ∧
      Instr.wf (.reserved8E ⟨3, 3, 0⟩) = false ∧ Instr.wf (.reserved8F ⟨3, 0, 0⟩) = false ∧
      Instr.wf (.reservedC6 ⟨3, 0, 0⟩) = false ∧ Instr.wf (.reservedC7 ⟨3, 0, 0⟩) = false ∧
      Instr.wf (.reservedFE ⟨3, 1, 0⟩) = false := by
  decide

theorem test_wf_accepts :
    Instr.wf (.movRRm .word 0 (.mem (.disp8 .bp 0))) = true ∧ Instr.wf (.xchgAxR16 7) = true ∧
      Instr.wf (.reserved0F 0x04) = true ∧ Instr.wf (.reservedFE ⟨3, 2, 0⟩) = true := by
  decide

/-! ### Decoding: bytes written out from the spec's encodings -/

/-- The bytes decode to this instruction, with none left over, and it encodes to them. -/
def codes (bs : List Byte) (i : Instr) : Bool :=
  (match decode bs with
    | .ok (j, []) => decide (j = i)
    | .ok (_, _ :: _) => false
    | .error _ => false) && decide (encode i = bs)

theorem test_decode_cond_jumps_1 :
    codes [0x70, 0x05] (.jo 0x05) ∧
      codes [0x71, 0xFE] (.jno 0xFE) ∧
      codes [0x72, 0x10] (.jb 0x10) ∧
      codes [0x73, 0x10] (.jae 0x10) ∧
      codes [0x74, 0x80] (.je 0x80) ∧
      codes [0x75, 0x7F] (.jne 0x7F) ∧
      codes [0x76, 0x01] (.jbe 0x01) ∧
      codes [0x77, 0x02] (.ja 0x02) ∧
      codes [0x78, 0x04] (.js 0x04) ∧
      codes [0x79, 0x04] (.jns 0x04) ∧
      codes [0x7A, 0x00] (.jp 0x00) ∧
      codes [0x7B, 0x00] (.jnp 0x00) ∧
      codes [0x7C, 0xFB] (.jl 0xFB) ∧
      codes [0x7D, 0xFB] (.jge 0xFB) := by
  decide +kernel

theorem test_decode_cond_jumps_2 :
    codes [0x7E, 0x03] (.jle 0x03) ∧
      codes [0x7F, 0x04] (.jg 0x04) := by
  decide +kernel

theorem test_decode_moves_1 :
    codes [0x88, 0xE3] (.movRmR .byte 4 (.reg 3)) ∧
      codes [0x89, 0x36, 0x00, 0x02] (.movRmR .word 6 (.mem (.direct 0x0200))) ∧
      codes [0x8A, 0x07] (.movRRm .byte 0 (.mem (.base .bx))) ∧
      codes [0x8B, 0x92, 0x34, 0x12] (.movRRm .word 2 (.mem (.disp16 .bpSi 0x1234))) ∧
      codes [0xC6, 0x47, 0xFF, 0x55] (.movRm8Imm8 (.mem (.disp8 .bx 0xFF)) 0x55) ∧
      codes [0xC7, 0xC1, 0x34, 0x12] (.movRm16Imm16 (.reg 1) 0x1234) ∧
      codes [0xB7, 0x12] (.movR8Imm8 7 0x12) ∧
      codes [0xBC, 0x00, 0x01] (.movR16Imm16 4 0x0100) ∧
      codes [0xA0, 0x10, 0x00] (.movAccMoffs .byte 0x0010) ∧
      codes [0xA3, 0x00, 0x01] (.movMoffsAcc .word 0x0100) ∧
      codes [0x8C, 0xD8] (.movRm16Sreg .ds (.reg 0)) ∧
      codes [0x8E, 0xC3] (.movSregRm16 .es (.reg 3)) ∧
      codes [0xC4, 0x1E, 0x00, 0x02] (.les 3 (.direct 0x0200)) ∧
      codes [0xC5, 0x74, 0x08] (.lds 6 (.disp8 .si 0x08)) := by
  decide +kernel

theorem test_decode_moves_2 :
    codes [0x8D, 0x78, 0x02] (.lea 7 (.disp8 .bxSi 0x02)) ∧
      codes [0xD7] .xlat ∧
      codes [0x98] .cbw ∧
      codes [0x99] .cwd ∧
      codes [0x9F] .lahf ∧
      codes [0x9E] .sahf ∧
      codes [0x97] (.xchgAxR16 7) ∧
      codes [0x90] .nop ∧
      codes [0x86, 0xE1] (.xchgRmR .byte 4 (.reg 1)) := by
  decide +kernel

theorem test_decode_stack_and_steps_1 :
    codes [0x54] (.pushR16 4) ∧
      codes [0x5D] (.popR16 5) ∧
      codes [0x0E] (.pushSreg .cs) ∧
      codes [0x1E] (.pushSreg .ds) ∧
      codes [0x07] .popEs ∧
      codes [0x17] .popSs ∧
      codes [0x1F] .popDs ∧
      codes [0xFF, 0x75, 0x02] (.pushRm16 (.mem (.disp8 .di 0x02))) ∧
      codes [0x8F, 0x06, 0x00, 0x02] (.popRm16 (.mem (.direct 0x0200))) ∧
      codes [0x9C] .pushf ∧
      codes [0x9D] .popf ∧
      codes [0x43] (.incR16 3) ∧
      codes [0x4F] (.decR16 7) ∧
      codes [0xFE, 0xC4] (.incRm .byte (.reg 4)) := by
  decide +kernel

theorem test_decode_stack_and_steps_2 :
    codes [0xFF, 0x0F] (.decRm .word (.mem (.base .bx))) := by
  decide +kernel

theorem test_decode_group3 :
    codes [0xF6, 0xC3, 0x80] (.testRm8Imm8 (.reg 3) 0x80) ∧
      codes [0xF7, 0x07, 0x01, 0x00] (.testRm16Imm16 (.mem (.base .bx)) 0x0001) ∧
      codes [0xF6, 0xD0] (.notRm .byte (.reg 0)) ∧
      codes [0xF7, 0xD8] (.negRm .word (.reg 0)) ∧
      codes [0xF6, 0xE3] (.mulRm .byte (.reg 3)) ∧
      codes [0xF7, 0xEB] (.imulRm .word (.reg 3)) ∧
      codes [0xF7, 0xF1] (.divRm .word (.reg 1)) ∧
      codes [0xF6, 0x3F] (.idivRm .byte (.mem (.base .bx))) := by
  decide +kernel

theorem test_decode_two_operand_1 :
    codes [0x00, 0xD8] (.addRmR .byte .toRm 3 (.reg 0)) ∧
      codes [0x03, 0x06, 0x00, 0x02] (.addRmR .word .toReg 0 (.mem (.direct 0x0200))) ∧
      codes [0x04, 0x01] (.addAlImm8 0x01) ∧
      codes [0x05, 0x01, 0x80] (.addAxImm16 0x8001) ∧
      codes [0x80, 0xC3, 0x10] (.addRm8Imm8 false (.reg 3) 0x10) ∧
      codes [0x82, 0xC3, 0x10] (.addRm8Imm8 true (.reg 3) 0x10) ∧
      codes [0x81, 0xC3, 0x34, 0x12] (.addRm16Imm16 (.reg 3) 0x1234) ∧
      codes [0x83, 0xC3, 0xFF] (.addRm16Simm8 (.reg 3) 0xFF) ∧
      codes [0x0A, 0xD9] (.orRmR .byte .toReg 3 (.reg 1)) ∧
      codes [0x0C, 0x0F] (.orAlImm8 0x0F) ∧
      codes [0x0D, 0x0F, 0x00] (.orAxImm16 0x000F) ∧
      codes [0x80, 0xC9, 0x01] (.orRm8Imm8 false (.reg 1) 0x01) ∧
      codes [0x81, 0xC9, 0x00, 0x80] (.orRm16Imm16 (.reg 1) 0x8000) ∧
      codes [0x83, 0xC9, 0x80] (.orRm16Simm8 (.reg 1) 0x80) := by
  decide +kernel

theorem test_decode_two_operand_2 :
    codes [0x11, 0xD8] (.adcRmR .word .toRm 3 (.reg 0)) ∧
      codes [0x14, 0x00] (.adcAlImm8 0x00) ∧
      codes [0x15, 0xFF, 0xFF] (.adcAxImm16 0xFFFF) ∧
      codes [0x82, 0xD2, 0x01] (.adcRm8Imm8 true (.reg 2) 0x01) ∧
      codes [0x81, 0xD2, 0x01, 0x00] (.adcRm16Imm16 (.reg 2) 0x0001) ∧
      codes [0x83, 0xD2, 0x00] (.adcRm16Simm8 (.reg 2) 0x00) ∧
      codes [0x19, 0xD8] (.sbbRmR .word .toRm 3 (.reg 0)) ∧
      codes [0x1C, 0x01] (.sbbAlImm8 0x01) ∧
      codes [0x1D, 0x01, 0x00] (.sbbAxImm16 0x0001) ∧
      codes [0x80, 0xDB, 0x01] (.sbbRm8Imm8 false (.reg 3) 0x01) ∧
      codes [0x81, 0xDB, 0x01, 0x00] (.sbbRm16Imm16 (.reg 3) 0x0001) ∧
      codes [0x83, 0xDB, 0x01] (.sbbRm16Simm8 (.reg 3) 0x01) ∧
      codes [0x22, 0x44, 0x02] (.andRmR .byte .toReg 0 (.mem (.disp8 .si 0x02))) ∧
      codes [0x24, 0x0F] (.andAlImm8 0x0F) := by
  decide +kernel

theorem test_decode_two_operand_3 :
    codes [0x25, 0xF0, 0x00] (.andAxImm16 0x00F0) ∧
      codes [0x80, 0xE3, 0x0F] (.andRm8Imm8 false (.reg 3) 0x0F) ∧
      codes [0x81, 0xE3, 0xF0, 0x00] (.andRm16Imm16 (.reg 3) 0x00F0) ∧
      codes [0x83, 0xE3, 0xF0] (.andRm16Simm8 (.reg 3) 0xF0) ∧
      codes [0x29, 0xC3] (.subRmR .word .toRm 0 (.reg 3)) ∧
      codes [0x2C, 0x01] (.subAlImm8 0x01) ∧
      codes [0x2D, 0x01, 0x00] (.subAxImm16 0x0001) ∧
      codes [0x82, 0xEB, 0x01] (.subRm8Imm8 true (.reg 3) 0x01) ∧
      codes [0x81, 0xEB, 0x00, 0x10] (.subRm16Imm16 (.reg 3) 0x1000) ∧
      codes [0x83, 0xEB, 0x01] (.subRm16Simm8 (.reg 3) 0x01) ∧
      codes [0x31, 0xC0] (.xorRmR .word .toRm 0 (.reg 0)) ∧
      codes [0x34, 0xFF] (.xorAlImm8 0xFF) ∧
      codes [0x35, 0xFF, 0xFF] (.xorAxImm16 0xFFFF) ∧
      codes [0x80, 0xF1, 0x55] (.xorRm8Imm8 false (.reg 1) 0x55) := by
  decide +kernel

theorem test_decode_two_operand_4 :
    codes [0x81, 0xF1, 0x55, 0xAA] (.xorRm16Imm16 (.reg 1) 0xAA55) ∧
      codes [0x83, 0xF1, 0xFF] (.xorRm16Simm8 (.reg 1) 0xFF) ∧
      codes [0x3B, 0x1D] (.cmpRmR .word .toReg 3 (.mem (.base .di))) ∧
      codes [0x3C, 0x20] (.cmpAlImm8 0x20) ∧
      codes [0x3D, 0x00, 0x80] (.cmpAxImm16 0x8000) ∧
      codes [0x80, 0x3E, 0x00, 0x02, 0x41] (.cmpRm8Imm8 false (.mem (.direct 0x0200)) 0x41) ∧
      codes [0x81, 0xF9, 0x00, 0x01] (.cmpRm16Imm16 (.reg 1) 0x0100) ∧
      codes [0x83, 0xF9, 0x00] (.cmpRm16Simm8 (.reg 1) 0x00) ∧
      codes [0x84, 0xC0] (.testRmR .byte 0 (.reg 0)) ∧
      codes [0xA8, 0x01] (.testAlImm8 0x01) ∧
      codes [0xA9, 0x00, 0x80] (.testAxImm16 0x8000) := by
  decide +kernel

theorem test_decode_strings :
    codes [0xA4] (.movs .byte) ∧
      codes [0xA7] (.cmps .word) ∧
      codes [0xAB] (.stos .word) ∧
      codes [0xAC] (.lods .byte) ∧
      codes [0xAE] (.scas .byte) ∧
      codes [0x26] (.segOverride .es) ∧
      codes [0x2E] (.segOverride .cs) ∧
      codes [0x36] (.segOverride .ss) ∧
      codes [0x3E] (.segOverride .ds) ∧
      codes [0xF2] (.rep .repne) ∧
      codes [0xF3] (.rep .repe) ∧
      codes [0xF0] .lock := by
  decide +kernel

theorem test_decode_shifts :
    codes [0xD0, 0xC0] (.rolRm .byte .one (.reg 0)) ∧
      codes [0xC1, 0xC0, 0x04] (.rolRmImm8 .word (.reg 0) 0x04) ∧
      codes [0xD3, 0xC8] (.rorRm .word .cl (.reg 0)) ∧
      codes [0xC0, 0xC8, 0x01] (.rorRmImm8 .byte (.reg 0) 0x01) ∧
      codes [0xD1, 0xD3] (.rclRm .word .one (.reg 3)) ∧
      codes [0xC0, 0xD0, 0x09] (.rclRmImm8 .byte (.reg 0) 0x09) ∧
      codes [0xD2, 0xD8] (.rcrRm .byte .cl (.reg 0)) ∧
      codes [0xC1, 0xDB, 0x11] (.rcrRmImm8 .word (.reg 3) 0x11) ∧
      codes [0xD1, 0xE0] (.shlRm .word .one (.reg 0)) ∧
      codes [0xC1, 0x26, 0x00, 0x02, 0x04] (.shlRmImm8 .word (.mem (.direct 0x0200)) 0x04) ∧
      codes [0xD0, 0xE8] (.shrRm .byte .one (.reg 0)) ∧
      codes [0xC0, 0xE8, 0x1F] (.shrRmImm8 .byte (.reg 0) 0x1F) ∧
      codes [0xD3, 0xF8] (.sarRm .word .cl (.reg 0)) ∧
      codes [0xC1, 0xF8, 0x0F] (.sarRmImm8 .word (.reg 0) 0x0F) := by
  decide +kernel

theorem test_decode_control_1 :
    codes [0xE0, 0xFB] (.loopne 0xFB) ∧
      codes [0xE1, 0xFB] (.loope 0xFB) ∧
      codes [0xE2, 0xFB] (.loop 0xFB) ∧
      codes [0xE3, 0x10] (.jcxz 0x10) ∧
      codes [0xEB, 0xFE] (.jmpRel8 0xFE) ∧
      codes [0xE9, 0xFD, 0x00] (.jmpRel16 0x00FD) ∧
      codes [0xEA, 0x00, 0x01, 0x00, 0xF0] (.jmpPtr 0x0100 0xF000) ∧
      codes [0xFF, 0xE3] (.jmpRm16 (.reg 3)) ∧
      codes [0xFF, 0x2E, 0x00, 0x02] (.jmpM1616 (.direct 0x0200)) ∧
      codes [0xE8, 0xFD, 0x00] (.callRel16 0x00FD) ∧
      codes [0x9A, 0x00, 0x02, 0x00, 0x10] (.callPtr 0x0200 0x1000) ∧
      codes [0xFF, 0xD3] (.callRm16 (.reg 3)) ∧
      codes [0xFF, 0x1E, 0x00, 0x02] (.callM1616 (.direct 0x0200)) ∧
      codes [0xC3] .ret := by
  decide +kernel

theorem test_decode_control_2 :
    codes [0xC2, 0x04, 0x00] (.retImm16 0x0004) ∧
      codes [0xCB] .retf ∧
      codes [0xCA, 0x02, 0x00] (.retfImm16 0x0002) ∧
      codes [0xCD, 0x10] (.int 0x10) ∧
      codes [0xCC] .int3 ∧
      codes [0xCE] .into ∧
      codes [0xCF] .iret := by
  decide +kernel

theorem test_decode_decimal_ports_flags_1 :
    codes [0x27] .daa ∧
      codes [0x2F] .das ∧
      codes [0x37] .aaa ∧
      codes [0x3F] .aas ∧
      codes [0xD4, 0x0A] (.aam 0x0A) ∧
      codes [0xD5, 0x10] (.aad 0x10) ∧
      codes [0xE4, 0x60] (.inAccImm8 .byte 0x60) ∧
      codes [0xED] (.inAccDx .word) ∧
      codes [0xE7, 0x80] (.outImm8Acc .word 0x80) ∧
      codes [0xEE] (.outDxAcc .byte) ∧
      codes [0xF8] .clc ∧
      codes [0xF9] .stc ∧
      codes [0xFA] .cli ∧
      codes [0xFB] .sti := by
  decide +kernel

theorem test_decode_decimal_ports_flags_2 :
    codes [0xFC] .cld ∧
      codes [0xFD] .std ∧
      codes [0xF5] .cmc ∧
      codes [0xF4] .hlt ∧
      codes [0x9B] .wait ∧
      codes [0xDB, 0xE3] (.esc 3 4 (.reg 3)) ∧
      codes [0xD9, 0x3E, 0x00, 0x02] (.esc 1 7 (.mem (.direct 0x0200))) ∧
      codes [0x0F, 0x00] .putchar ∧
      codes [0x0F, 0x01] .getTime ∧
      codes [0x0F, 0x02] .diskRead ∧
      codes [0x0F, 0x03] .diskWrite := by
  decide +kernel

theorem test_decode_reserved_1 :
    codes [0x0F, 0x04] (.reserved0F 0x04) ∧
      codes [0x60] (.reserved60to6F 0) ∧
      codes [0x6F] (.reserved60to6F 15) ∧
      codes [0x8C, 0xE0] (.reserved8C ⟨3, 4, 0⟩) ∧
      codes [0x8D, 0xC3] (.reserved8D 0 3) ∧
      codes [0x8E, 0x27] (.reserved8E ⟨0, 4, 7⟩) ∧
      codes [0x8F, 0xC8] (.reserved8F ⟨3, 1, 0⟩) ∧
      codes [0xC1, 0xF3] (.reservedC0C1 .word 3 3) ∧
      codes [0xC4, 0xD9] (.reservedC4 3 1) ∧
      codes [0xC5, 0xD9] (.reservedC5 3 1) ∧
      codes [0xC6, 0xC8] (.reservedC6 ⟨3, 1, 0⟩) ∧
      codes [0xC7, 0xF8] (.reservedC7 ⟨3, 7, 0⟩) ∧
      codes [0xC9] (.reservedC8C9 1) ∧
      codes [0xD3, 0x37] (.reservedD0toD3 .word .cl 0 7) := by
  decide +kernel

theorem test_decode_reserved_2 :
    codes [0xD6] .reservedD6 ∧
      codes [0xF1] .reservedF1 ∧
      codes [0xF7, 0xCA] (.reservedF6F7 .word 3 2) ∧
      codes [0xFE, 0xD0] (.reservedFE ⟨3, 2, 0⟩) ∧
      codes [0xFF, 0xD8] (.reservedFF3 0) ∧
      codes [0xFF, 0xE9] (.reservedFF5 1) ∧
      codes [0xFF, 0x7E] (.reservedFF7 1 6) := by
  decide +kernel

/-! ### Single steps: rows of the spec's test vectors -/

/-- The base state of every vector row (95_test_vectors, section 1), with the clock hook's parameters at any value. -/
def base : State :=
  { State.reset with
    regs := { Regs.reset with AX := 0, DX := 0, SP := 0x0100, ES := 0x2000, SS := 0x3000, DS := 0x1000 }
    params := { tickPeriod := 20000, rtcMsAddr := 0x99999, rtcMsLen := 0, deviceBytes := [], deviceEverywhere := false } }

/-- The base state with these registers, this flags image, these bytes of memory and these ports. -/
def start (rs : List (Reg × Word)) (image : Word) (cells : List (Addr × Byte)) (ports : List (Word × Byte) := []) : State :=
  ports.foldl (fun s c => s.setPort c.1 c.2)
    (cells.foldl (fun s c => s.putByte c.1 c.2)
      ((rs.foldl (fun s r => s.setReg r.1 r.2) base).setFlags (Flags.unpack image)))

/-- A step with these instruction bytes at `CS:IP` answers a next state that passes. -/
def steps (bs : List Byte) (s : State) (p : State → Bool) : Bool :=
  match step (s.putBytes s.fetchAddr bs) with
  | .next t => p t
  | .fault _ => false
  | .refused _ => false

theorem test_step_movRRm_EA1 :
    steps [0x8B, 0x00] (start [(.bx, 0x1000), (.bp, 0x2000), (.si, 0x0300), (.di, 0x0040)] 0xF002 [(0x11300, 0xEF), (0x11301,
      0xBE)]) (fun t =>
      t.reg .ax == 0xBEEF && t.IP == 0x0102) := by
  decide +kernel

theorem test_step_lea_EA27 :
    steps [0x8D, 0x40, 0x10] (start [(.bx, 0x1000), (.bp, 0x2000), (.si, 0x0300), (.di, 0x0040)] 0xF002 []) (fun t =>
      t.reg .ax == 0x1310 && t.IP == 0x0103) := by
  decide +kernel

theorem test_step_jo_JC1 :
    steps [0x70, 0x10] (start [] 0xF802 []) (fun t =>
      t.IP == 0x0112) := by
  decide +kernel

theorem test_step_jno_JC3 :
    steps [0x71, 0x10] (start [] 0xF002 []) (fun t =>
      t.IP == 0x0112) := by
  decide +kernel

theorem test_step_jb_JC5 :
    steps [0x72, 0x10] (start [] 0xF003 []) (fun t =>
      t.IP == 0x0112) := by
  decide +kernel

theorem test_step_jae_JC7 :
    steps [0x73, 0x10] (start [] 0xF002 []) (fun t =>
      t.IP == 0x0112) := by
  decide +kernel

theorem test_step_je_JC9 :
    steps [0x74, 0x10] (start [] 0xF042 []) (fun t =>
      t.IP == 0x0112) := by
  decide +kernel

theorem test_step_jne_JC11 :
    steps [0x75, 0x10] (start [] 0xF002 []) (fun t =>
      t.IP == 0x0112) := by
  decide +kernel

theorem test_step_jbe_JC13 :
    steps [0x76, 0x10] (start [] 0xF003 []) (fun t =>
      t.IP == 0x0112) := by
  decide +kernel

theorem test_step_ja_JC15 :
    steps [0x77, 0x10] (start [] 0xF002 []) (fun t =>
      t.IP == 0x0112) := by
  decide +kernel

theorem test_step_js_JC17 :
    steps [0x78, 0x10] (start [] 0xF082 []) (fun t =>
      t.IP == 0x0112) := by
  decide +kernel

theorem test_step_jns_JC19 :
    steps [0x79, 0x10] (start [] 0xF002 []) (fun t =>
      t.IP == 0x0112) := by
  decide +kernel

theorem test_step_jp_JC21 :
    steps [0x7A, 0x10] (start [] 0xF006 []) (fun t =>
      t.IP == 0x0112) := by
  decide +kernel

theorem test_step_jnp_JC23 :
    steps [0x7B, 0x10] (start [] 0xF002 []) (fun t =>
      t.IP == 0x0112) := by
  decide +kernel

theorem test_step_jl_JC25 :
    steps [0x7C, 0x10] (start [] 0xF082 []) (fun t =>
      t.IP == 0x0112) := by
  decide +kernel

theorem test_step_jge_JC27 :
    steps [0x7D, 0x10] (start [] 0xF882 []) (fun t =>
      t.IP == 0x0112) := by
  decide +kernel

theorem test_step_jle_JC29 :
    steps [0x7E, 0x10] (start [] 0xF042 []) (fun t =>
      t.IP == 0x0112) := by
  decide +kernel

theorem test_step_jg_JC31 :
    steps [0x7F, 0x10] (start [] 0xF002 []) (fun t =>
      t.IP == 0x0112) := by
  decide +kernel

theorem test_step_movRmR_DM2 :
    steps [0x89, 0x47, 0x02] (start [(.ax, 0x1234), (.bx, 0x0200)] 0xF002 []) (fun t =>
      t.IP == 0x0103 && t.readByte 0x10202 == 0x34 && t.readByte 0x10203 == 0x12) := by
  decide +kernel

theorem test_step_movRm8Imm8_DM7 :
    steps [0xC6, 0x06, 0x00, 0x03, 0xAB] (start [] 0xF002 []) (fun t =>
      t.IP == 0x0105 && t.readByte 0x10300 == 0xAB) := by
  decide +kernel

theorem test_step_movRm16Imm16_DM8 :
    steps [0xC7, 0x06, 0x00, 0x03, 0xCD, 0xAB] (start [] 0xF002 []) (fun t =>
      t.IP == 0x0106 && t.readByte 0x10300 == 0xCD && t.readByte 0x10301 == 0xAB) := by
  decide +kernel

theorem test_step_movR8Imm8_DM12 :
    steps [0xB0, 0x12] (start [] 0xF002 []) (fun t =>
      t.reg .ax == 0x0012 && t.IP == 0x0102) := by
  decide +kernel

theorem test_step_movR16Imm16_DM15 :
    steps [0xB8, 0x34, 0x12] (start [] 0xF002 []) (fun t =>
      t.reg .ax == 0x1234 && t.IP == 0x0103) := by
  decide +kernel

theorem test_step_movAccMoffs_DM18 :
    steps [0xA0, 0x00, 0x03] (start [] 0xF002 [(0x10300, 0x5A)]) (fun t =>
      t.reg .ax == 0x005A && t.IP == 0x0103) := by
  decide +kernel

theorem test_step_movMoffsAcc_DM21 :
    steps [0xA3, 0x00, 0x01] (start [(.ax, 0x1234)] 0xF002 []) (fun t =>
      t.IP == 0x0103 && t.readByte 0x10100 == 0x34 && t.readByte 0x10101 == 0x12) := by
  decide +kernel

theorem test_step_movRm16Sreg_DM23 :
    steps [0x8C, 0xD8] (start [] 0xF002 []) (fun t =>
      t.reg .ax == 0x1000 && t.IP == 0x0102) := by
  decide +kernel

theorem test_step_movSregRm16_DM27 :
    steps [0x8E, 0xC0] (start [(.ax, 0xB800)] 0xF002 []) (fun t =>
      t.reg .es == 0xB800 && t.IP == 0x0102) := by
  decide +kernel

theorem test_step_pushR16_DM32 :
    steps [0x50] (start [(.ax, 0x1234)] 0xF002 []) (fun t =>
      t.reg .sp == 0x00FE && t.IP == 0x0101 && t.readByte 0x300FE == 0x34 && t.readByte 0x300FF == 0x12) := by
  decide +kernel

theorem test_step_popR16_DM36 :
    steps [0x58] (start [] 0xF002 [(0x30100, 0x34), (0x30101, 0x12)]) (fun t =>
      t.reg .ax == 0x1234 && t.reg .sp == 0x0102 && t.IP == 0x0101) := by
  decide +kernel

theorem test_step_pushSreg_DM39 :
    steps [0x06] (start [] 0xF002 []) (fun t =>
      t.reg .sp == 0x00FE && t.IP == 0x0101 && t.readByte 0x300FF == 0x20) := by
  decide +kernel

theorem test_step_popEs_DM43 :
    steps [0x07] (start [] 0xF002 [(0x30100, 0x00), (0x30101, 0xB8)]) (fun t =>
      t.reg .sp == 0x0102 && t.reg .es == 0xB800 && t.IP == 0x0101) := by
  decide +kernel

theorem test_step_popSs_DM44 :
    steps [0x17] (start [] 0xF002 [(0x30100, 0x00), (0x30101, 0x40)]) (fun t =>
      t.reg .sp == 0x0102 && t.reg .ss == 0x4000 && t.IP == 0x0101) := by
  decide +kernel

theorem test_step_popDs_DM45 :
    steps [0x1F] (start [] 0xF002 [(0x30100, 0x00), (0x30101, 0x50)]) (fun t =>
      t.reg .sp == 0x0102 && t.reg .ds == 0x5000 && t.IP == 0x0101) := by
  decide +kernel

theorem test_step_pushRm16_DM46 :
    steps [0xFF, 0x36, 0x00, 0x03] (start [] 0xF002 [(0x10300, 0xCD), (0x10301, 0xAB)]) (fun t =>
      t.reg .sp == 0x00FE && t.IP == 0x0104 && t.readByte 0x300FE == 0xCD && t.readByte 0x300FF == 0xAB) := by
  decide +kernel

theorem test_step_popRm16_DM48 :
    steps [0x8F, 0x06, 0x00, 0x03] (start [] 0xF002 [(0x30100, 0xCD), (0x30101, 0xAB)]) (fun t =>
      t.reg .sp == 0x0102 && t.IP == 0x0104 && t.readByte 0x10300 == 0xCD && t.readByte 0x10301 == 0xAB) := by
  decide +kernel

theorem test_step_pushf_DM51 :
    steps [0x9C] (start [] 0xF002 []) (fun t =>
      t.reg .sp == 0x00FE && t.IP == 0x0101 && t.readByte 0x300FE == 0x02 && t.readByte 0x300FF == 0xF0) := by
  decide +kernel

theorem test_step_popf_DM53 :
    steps [0x9D] (start [] 0xF002 [(0x30100, 0xD5), (0x30101, 0x0A)]) (fun t =>
      t.reg .sp == 0x0102 && t.IP == 0x0101 && t.flags.CF == true && t.flags.PF == true && t.flags.AF == true &&
        t.flags.ZF == true && t.flags.SF == true && t.flags.IF == true && t.flags.OF == true) := by
  decide +kernel

theorem test_step_lahf_DM56 :
    steps [0x9F] (start [] 0xF0C3 []) (fun t =>
      t.reg .ax == 0xC300 && t.IP == 0x0101) := by
  decide +kernel

theorem test_step_sahf_DM58 :
    steps [0x9E] (start [(.ax, 0xFF00)] 0xF002 []) (fun t =>
      t.IP == 0x0101 && t.flags.CF == true && t.flags.PF == true && t.flags.AF == true && t.flags.ZF == true &&
        t.flags.SF == true) := by
  decide +kernel

theorem test_step_xchgAxR16_DM60 :
    steps [0x93] (start [(.ax, 0x1111), (.bx, 0x2222)] 0xF002 []) (fun t =>
      t.reg .ax == 0x2222 && t.reg .bx == 0x1111 && t.IP == 0x0101) := by
  decide +kernel

theorem test_step_nop_DM62 :
    steps [0x90] (start [] 0xF002 []) (fun t =>
      t.IP == 0x0101) := by
  decide +kernel

theorem test_step_xchgRmR_DM64 :
    steps [0x87, 0x1E, 0x00, 0x03] (start [(.bx, 0x1111)] 0xF002 [(0x10300, 0x22), (0x10301, 0x22)]) (fun t =>
      t.reg .bx == 0x2222 && t.IP == 0x0104 && t.readByte 0x10300 == 0x11 && t.readByte 0x10301 == 0x11) := by
  decide +kernel

theorem test_step_les_DM66 :
    steps [0xC4, 0x1E, 0x00, 0x03] (start [] 0xF002 [(0x10300, 0x34), (0x10301, 0x12), (0x10302, 0x78), (0x10303,
      0x56)]) (fun t =>
      t.reg .bx == 0x1234 && t.reg .es == 0x5678 && t.IP == 0x0104) := by
  decide +kernel

theorem test_step_lds_DM67 :
    steps [0xC5, 0x36, 0x00, 0x03] (start [] 0xF002 [(0x10300, 0x34), (0x10301, 0x12), (0x10302, 0x78), (0x10303,
      0x56)]) (fun t =>
      t.reg .si == 0x1234 && t.reg .ds == 0x5678 && t.IP == 0x0104) := by
  decide +kernel

theorem test_step_xlat_DM70 :
    steps [0xD7] (start [(.ax, 0x0005), (.bx, 0x0300)] 0xF002 [(0x10305, 0x99)]) (fun t =>
      t.reg .ax == 0x0099 && t.IP == 0x0101) := by
  decide +kernel

theorem test_step_cbw_DM73 :
    steps [0x98] (start [(.ax, 0x1280)] 0xF002 []) (fun t =>
      t.reg .ax == 0xFF80 && t.IP == 0x0101) := by
  decide +kernel

theorem test_step_cwd_DM75 :
    steps [0x99] (start [(.ax, 0x8000), (.dx, 0x1234)] 0xF002 []) (fun t =>
      t.reg .dx == 0xFFFF && t.IP == 0x0101) := by
  decide +kernel

theorem test_step_incR16_DM79 :
    steps [0x40] (start [(.ax, 0x7FFF)] 0xF002 []) (fun t =>
      t.reg .ax == 0x8000 && t.IP == 0x0101 && t.flags.PF == true && t.flags.AF == true && t.flags.SF == true &&
        t.flags.OF == true) := by
  decide +kernel

theorem test_step_decR16_DM81 :
    steps [0x48] (start [] 0xF002 []) (fun t =>
      t.reg .ax == 0xFFFF && t.IP == 0x0101 && t.flags.PF == true && t.flags.AF == true && t.flags.SF == true) := by
  decide +kernel

theorem test_step_incRm_DM85 :
    steps [0xFE, 0xC0] (start [(.ax, 0x007F)] 0xF002 []) (fun t =>
      t.reg .ax == 0x0080 && t.IP == 0x0102 && t.flags.AF == true && t.flags.SF == true && t.flags.OF == true) := by
  decide +kernel

theorem test_step_decRm_DM90 :
    steps [0xFF, 0x0E, 0x00, 0x03] (start [] 0xF002 [(0x10300, 0x00), (0x10301, 0x00)]) (fun t =>
      t.IP == 0x0104 && t.flags.PF == true && t.flags.AF == true && t.flags.SF == true && t.readByte 0x10300 == 0xFF &&
        t.readByte 0x10301 == 0xFF) := by
  decide +kernel

theorem test_step_testRm8Imm8_UM1 :
    steps [0xF6, 0xC3, 0x0F] (start [(.bx, 0x00F0)] 0xF813 []) (fun t =>
      t.IP == 0x0103 && t.flags.CF == false && t.flags.PF == true && t.flags.ZF == true && t.flags.OF == false) := by
  decide +kernel

theorem test_step_testRm16Imm16_UM2 :
    steps [0xF7, 0x06, 0x00, 0x03, 0x00, 0x80] (start [] 0xF002 [(0x10300, 0x00), (0x10301, 0x80)]) (fun t =>
      t.IP == 0x0106 && t.flags.PF == true && t.flags.SF == true) := by
  decide +kernel

theorem test_step_notRm_UM5 :
    steps [0xF7, 0x16, 0x00, 0x03] (start [] 0xF002 [(0x10300, 0x00), (0x10301, 0xFF)]) (fun t =>
      t.IP == 0x0104 && t.readByte 0x10300 == 0xFF && t.readByte 0x10301 == 0x00) := by
  decide +kernel

theorem test_step_negRm_UM6 :
    steps [0xF6, 0xD8] (start [(.ax, 0x0001)] 0xF002 []) (fun t =>
      t.reg .ax == 0x00FF && t.IP == 0x0102 && t.flags.CF == true && t.flags.PF == true && t.flags.AF == true &&
        t.flags.SF == true) := by
  decide +kernel

theorem test_step_mulRm_UM15 :
    steps [0xF7, 0xE3] (start [(.ax, 0xFFFF), (.bx, 0xFFFF)] 0xF002 []) (fun t =>
      t.reg .ax == 0x0001 && t.reg .dx == 0xFFFE && t.IP == 0x0102 && t.flags.CF == true && t.flags.OF == true) := by
  decide +kernel

theorem test_step_imulRm_UM21 :
    steps [0xF7, 0xEB] (start [(.ax, 0x8000), (.bx, 0x0002)] 0xF002 []) (fun t =>
      t.reg .ax == 0x0000 && t.reg .dx == 0xFFFF && t.IP == 0x0102 && t.flags.CF == true && t.flags.OF == true) := by
  decide +kernel

theorem test_step_divRm_UM25 :
    steps [0xF6, 0xF3] (start [(.ax, 0x0100), (.bx, 0x0001)] 0xF002 [(0x00000, 0x00), (0x00001, 0x02), (0x00002, 0x00),
      (0x00003, 0x10)]) (fun t =>
      t.reg .sp == 0x00FA && t.reg .cs == 0x1000 && t.IP == 0x0200 && t.readByte 0x300FB == 0x01 &&
        t.readByte 0x300FD == 0xF0 && t.readByte 0x300FE == 0x02 && t.readByte 0x300FF == 0xF0) := by
  decide +kernel

theorem test_step_idivRm_UM35 :
    steps [0xF6, 0xFB] (start [(.ax, 0x0080), (.bx, 0x0001)] 0xF002 [(0x00000, 0x00), (0x00001, 0x02), (0x00002, 0x00),
      (0x00003, 0x10)]) (fun t =>
      t.reg .sp == 0x00FA && t.reg .cs == 0x1000 && t.IP == 0x0200 && t.readByte 0x300FB == 0x01 &&
        t.readByte 0x300FD == 0xF0 && t.readByte 0x300FE == 0x02 && t.readByte 0x300FF == 0xF0) := by
  decide +kernel

theorem test_step_addRmR_AL10 :
    steps [0x01, 0x1E, 0x00, 0x03] (start [(.bx, 0x0001)] 0xF002 [(0x10300, 0xFF), (0x10301, 0xFF)]) (fun t =>
      t.IP == 0x0104 && t.flags.CF == true && t.flags.PF == true && t.flags.AF == true && t.flags.ZF == true &&
        t.readByte 0x10300 == 0x00 && t.readByte 0x10301 == 0x00) := by
  decide +kernel

theorem test_step_addAlImm8_AL11 :
    steps [0x04, 0x01] (start [(.ax, 0x00FF)] 0xF002 []) (fun t =>
      t.reg .ax == 0x0000 && t.IP == 0x0102 && t.flags.CF == true && t.flags.PF == true && t.flags.AF == true &&
        t.flags.ZF == true) := by
  decide +kernel

theorem test_step_addAxImm16_AL12 :
    steps [0x05, 0x01, 0x00] (start [(.ax, 0x00FF)] 0xF002 []) (fun t =>
      t.reg .ax == 0x0100 && t.IP == 0x0103 && t.flags.PF == true && t.flags.AF == true) := by
  decide +kernel

theorem test_step_addRm8Imm8_AL13 :
    steps [0x80, 0xC3, 0x80] (start [(.bx, 0x0080)] 0xF002 []) (fun t =>
      t.reg .bx == 0x0000 && t.IP == 0x0103 && t.flags.CF == true && t.flags.PF == true && t.flags.ZF == true &&
        t.flags.OF == true) := by
  decide +kernel

theorem test_step_addRm16Imm16_AL15 :
    steps [0x81, 0xC3, 0x00, 0x80] (start [(.bx, 0x8000)] 0xF002 []) (fun t =>
      t.reg .bx == 0x0000 && t.IP == 0x0104 && t.flags.CF == true && t.flags.PF == true && t.flags.ZF == true &&
        t.flags.OF == true) := by
  decide +kernel

theorem test_step_addRm16Simm8_AL16 :
    steps [0x83, 0xC3, 0xFF] (start [(.bx, 0x0001)] 0xF002 []) (fun t =>
      t.reg .bx == 0x0000 && t.IP == 0x0103 && t.flags.CF == true && t.flags.PF == true && t.flags.AF == true &&
        t.flags.ZF == true) := by
  decide +kernel

theorem test_step_orRmR_AL19 :
    steps [0x08, 0xD8] (start [(.ax, 0x000F), (.bx, 0x00F0)] 0xF813 []) (fun t =>
      t.reg .ax == 0x00FF && t.IP == 0x0102 && t.flags.CF == false && t.flags.PF == true && t.flags.SF == true &&
        t.flags.OF == false) := by
  decide +kernel

theorem test_step_orAlImm8_AL20 :
    steps [0x0C, 0x00] (start [] 0xF002 []) (fun t =>
      t.IP == 0x0102 && t.flags.PF == true && t.flags.ZF == true) := by
  decide +kernel

theorem test_step_orRm16Simm8_AL21 :
    steps [0x83, 0xCB, 0x80] (start [(.bx, 0x0001)] 0xF002 []) (fun t =>
      t.reg .bx == 0xFF81 && t.IP == 0x0103 && t.flags.PF == true && t.flags.SF == true) := by
  decide +kernel

theorem test_step_adcRmR_AL23 :
    steps [0x10, 0xD8] (start [(.ax, 0x007F)] 0xF003 []) (fun t =>
      t.reg .ax == 0x0080 && t.IP == 0x0102 && t.flags.CF == false && t.flags.AF == true && t.flags.SF == true &&
        t.flags.OF == true) := by
  decide +kernel

theorem test_step_adcAlImm8_AL26 :
    steps [0x14, 0x0F] (start [] 0xF003 []) (fun t =>
      t.reg .ax == 0x0010 && t.IP == 0x0102 && t.flags.CF == false && t.flags.AF == true) := by
  decide +kernel

theorem test_step_sbbRmR_AL29 :
    steps [0x18, 0xD8] (start [(.ax, 0x0080)] 0xF003 []) (fun t =>
      t.reg .ax == 0x007F && t.IP == 0x0102 && t.flags.CF == false && t.flags.AF == true && t.flags.OF == true) := by
  decide +kernel

theorem test_step_sbbAlImm8_AL32 :
    steps [0x1C, 0x01] (start [(.ax, 0x0001)] 0xF002 []) (fun t =>
      t.reg .ax == 0x0000 && t.IP == 0x0102 && t.flags.PF == true && t.flags.ZF == true) := by
  decide +kernel

theorem test_step_andRmR_AL34 :
    steps [0x20, 0xD8] (start [(.ax, 0x00F0), (.bx, 0x003C)] 0xF803 []) (fun t =>
      t.reg .ax == 0x0030 && t.IP == 0x0102 && t.flags.CF == false && t.flags.PF == true && t.flags.OF == false) := by
  decide +kernel

theorem test_step_andAlImm8_AL35 :
    steps [0x24, 0x0F] (start [(.ax, 0x00F0)] 0xF002 []) (fun t =>
      t.reg .ax == 0x0000 && t.IP == 0x0102 && t.flags.PF == true && t.flags.ZF == true) := by
  decide +kernel

theorem test_step_subRmR_AL37 :
    steps [0x28, 0xD8] (start [(.bx, 0x0001)] 0xF002 []) (fun t =>
      t.reg .ax == 0x00FF && t.IP == 0x0102 && t.flags.CF == true && t.flags.PF == true && t.flags.AF == true &&
        t.flags.SF == true) := by
  decide +kernel

theorem test_step_subAlImm8_AL41 :
    steps [0x2C, 0x10] (start [(.ax, 0x000F)] 0xF002 []) (fun t =>
      t.reg .ax == 0x00FF && t.IP == 0x0102 && t.flags.CF == true && t.flags.PF == true && t.flags.SF == true) := by
  decide +kernel

theorem test_step_subRm16Simm8_AL43 :
    steps [0x83, 0xEC, 0x02] (start [] 0xF002 []) (fun t =>
      t.reg .sp == 0x00FE && t.IP == 0x0103 && t.flags.AF == true) := by
  decide +kernel

theorem test_step_xorRmR_AL44 :
    steps [0x30, 0xC0] (start [(.ax, 0x005A)] 0xF803 []) (fun t =>
      t.reg .ax == 0x0000 && t.IP == 0x0102 && t.flags.CF == false && t.flags.PF == true && t.flags.ZF == true &&
        t.flags.OF == false) := by
  decide +kernel

theorem test_step_xorAlImm8_AL46 :
    steps [0x34, 0xFF] (start [(.ax, 0x000F)] 0xF002 []) (fun t =>
      t.reg .ax == 0x00F0 && t.IP == 0x0102 && t.flags.PF == true && t.flags.SF == true) := by
  decide +kernel

theorem test_step_cmpRmR_AL48 :
    steps [0x38, 0xD8] (start [(.ax, 0x0005), (.bx, 0x0006)] 0xF002 []) (fun t =>
      t.IP == 0x0102 && t.flags.CF == true && t.flags.PF == true && t.flags.AF == true && t.flags.SF == true) := by
  decide +kernel

theorem test_step_cmpAlImm8_AL51 :
    steps [0x3C, 0x80] (start [(.ax, 0x007F)] 0xF002 []) (fun t =>
      t.IP == 0x0102 && t.flags.CF == true && t.flags.PF == true && t.flags.SF == true && t.flags.OF == true) := by
  decide +kernel

theorem test_step_cmpRm16Simm8_AL53 :
    steps [0x83, 0x3E, 0x00, 0x03, 0xFF] (start [] 0xF002 [(0x10300, 0xFF), (0x10301, 0xFF)]) (fun t =>
      t.IP == 0x0105 && t.flags.PF == true && t.flags.ZF == true) := by
  decide +kernel

theorem test_step_testRmR_AL55 :
    steps [0x84, 0xD8] (start [(.ax, 0x0081), (.bx, 0x0080)] 0xF003 []) (fun t =>
      t.IP == 0x0102 && t.flags.CF == false && t.flags.SF == true) := by
  decide +kernel

theorem test_step_testAlImm8_AL57 :
    steps [0xA8, 0x01] (start [(.ax, 0x00FE)] 0xF002 []) (fun t =>
      t.IP == 0x0102 && t.flags.PF == true && t.flags.ZF == true) := by
  decide +kernel

theorem test_step_testAxImm16_AL58 :
    steps [0xA9, 0x00, 0x80] (start [(.ax, 0x8000)] 0xF002 []) (fun t =>
      t.IP == 0x0103 && t.flags.PF == true && t.flags.SF == true) := by
  decide +kernel

theorem test_step_movs_ST2 :
    steps [0xA5] (start [(.si, 0x0200), (.di, 0x0300)] 0xF002 [(0x10200, 0xBB), (0x10201, 0xAA)]) (fun t =>
      t.reg .si == 0x0202 && t.reg .di == 0x0302 && t.IP == 0x0101 && t.readByte 0x20300 == 0xBB &&
        t.readByte 0x20301 == 0xAA) := by
  decide +kernel

theorem test_step_stos_ST15 :
    steps [0xAB] (start [(.ax, 0x1234), (.di, 0x0400)] 0xF402 []) (fun t =>
      t.reg .di == 0x03FE && t.IP == 0x0101 && t.readByte 0x20400 == 0x34 && t.readByte 0x20401 == 0x12) := by
  decide +kernel

theorem test_step_lods_ST18 :
    steps [0xAC] (start [(.si, 0x0200)] 0xF002 [(0x10200, 0x77)]) (fun t =>
      t.reg .ax == 0x0077 && t.reg .si == 0x0201 && t.IP == 0x0101) := by
  decide +kernel

theorem test_step_cmps_ST22 :
    steps [0xA6] (start [(.si, 0x0200), (.di, 0x0300)] 0xF002 [(0x10200, 0x05), (0x20300, 0x06)]) (fun t =>
      t.reg .si == 0x0201 && t.reg .di == 0x0301 && t.IP == 0x0101 && t.flags.CF == true && t.flags.PF == true &&
        t.flags.AF == true && t.flags.SF == true) := by
  decide +kernel

theorem test_step_scas_ST30 :
    steps [0xAF] (start [(.ax, 0x0001), (.di, 0x0300)] 0xF002 [(0x20300, 0x02), (0x20301, 0x00)]) (fun t =>
      t.reg .di == 0x0302 && t.IP == 0x0101 && t.flags.CF == true && t.flags.PF == true && t.flags.AF == true &&
        t.flags.SF == true) := by
  decide +kernel

theorem test_step_segOverride_ST35 :
    steps [0x26] (start [] 0xF002 []) (fun t =>
      t.IP == 0x0101 && t.segOvrCnt == 2) := by
  decide +kernel

theorem test_step_rep_ST36 :
    steps [0xF3] (start [] 0xF002 []) (fun t =>
      t.IP == 0x0101 && t.repCnt == 2) := by
  decide +kernel

theorem test_step_rolRm_SH1 :
    steps [0xD0, 0xC0] (start [(.ax, 0x0081)] 0xF002 []) (fun t =>
      t.reg .ax == 0x0003 && t.IP == 0x0102 && t.flags.CF == true && t.flags.OF == true) := by
  decide +kernel

theorem test_step_rolRmImm8_SH2 :
    steps [0xC1, 0xC0, 0x04] (start [(.ax, 0x1234)] 0xF002 []) (fun t =>
      t.reg .ax == 0x2341 && t.IP == 0x0103 && t.flags.CF == true) := by
  decide +kernel

theorem test_step_rorRm_SH10 :
    steps [0xD0, 0xC8] (start [(.ax, 0x0001)] 0xF002 []) (fun t =>
      t.reg .ax == 0x0080 && t.IP == 0x0102 && t.flags.CF == true && t.flags.OF == true) := by
  decide +kernel

theorem test_step_rorRmImm8_SH13 :
    steps [0xC0, 0xC8, 0x04] (start [(.ax, 0x0012)] 0xF002 []) (fun t =>
      t.reg .ax == 0x0021 && t.IP == 0x0103) := by
  decide +kernel

theorem test_step_rclRm_SH15 :
    steps [0xD0, 0xD0] (start [(.ax, 0x0080)] 0xF002 []) (fun t =>
      t.reg .ax == 0x0000 && t.IP == 0x0102 && t.flags.CF == true && t.flags.OF == true) := by
  decide +kernel

theorem test_step_rclRmImm8_SH18 :
    steps [0xC0, 0xD0, 0x08] (start [(.ax, 0x0001)] 0xF002 []) (fun t =>
      t.reg .ax == 0x0000 && t.IP == 0x0103 && t.flags.CF == true) := by
  decide +kernel

theorem test_step_rcrRm_SH24 :
    steps [0xD0, 0xD8] (start [] 0xF003 []) (fun t =>
      t.reg .ax == 0x0080 && t.IP == 0x0102 && t.flags.CF == false && t.flags.OF == true) := by
  decide +kernel

theorem test_step_rcrRmImm8_SH27 :
    steps [0xC0, 0xD8, 0x08] (start [(.ax, 0x0080)] 0xF002 []) (fun t =>
      t.reg .ax == 0x0000 && t.IP == 0x0103 && t.flags.CF == true) := by
  decide +kernel

theorem test_step_shlRm_SH29 :
    steps [0xD0, 0xE0] (start [(.ax, 0x0080)] 0xF002 []) (fun t =>
      t.reg .ax == 0x0000 && t.IP == 0x0102 && t.flags.CF == true && t.flags.PF == true && t.flags.ZF == true &&
        t.flags.OF == true) := by
  decide +kernel

theorem test_step_shlRmImm8_SH32 :
    steps [0xC0, 0xE0, 0x04] (start [(.ax, 0x001F)] 0xF012 []) (fun t =>
      t.reg .ax == 0x00F0 && t.IP == 0x0103 && t.flags.CF == true && t.flags.PF == true && t.flags.SF == true) := by
  decide +kernel

theorem test_step_shrRm_SH41 :
    steps [0xD0, 0xE8] (start [(.ax, 0x0001)] 0xF002 []) (fun t =>
      t.reg .ax == 0x0000 && t.IP == 0x0102 && t.flags.CF == true && t.flags.PF == true && t.flags.ZF == true) := by
  decide +kernel

theorem test_step_shrRmImm8_SH43 :
    steps [0xC0, 0xE8, 0x08] (start [(.ax, 0x0080)] 0xF002 []) (fun t =>
      t.reg .ax == 0x0000 && t.IP == 0x0103 && t.flags.CF == true && t.flags.PF == true && t.flags.ZF == true) := by
  decide +kernel

theorem test_step_sarRm_SH46 :
    steps [0xD0, 0xF8] (start [(.ax, 0x0081)] 0xF002 []) (fun t =>
      t.reg .ax == 0x00C0 && t.IP == 0x0102 && t.flags.CF == true && t.flags.PF == true && t.flags.SF == true) := by
  decide +kernel

theorem test_step_sarRmImm8_SH49 :
    steps [0xC0, 0xF8, 0x08] (start [(.ax, 0x0080)] 0xF002 []) (fun t =>
      t.reg .ax == 0x00FF && t.IP == 0x0103 && t.flags.CF == true && t.flags.PF == true && t.flags.SF == true) := by
  decide +kernel

theorem test_step_loop_CT1 :
    steps [0xE2, 0xFE] (start [(.cx, 0x0002)] 0xF002 []) (fun t =>
      t.reg .cx == 0x0001 && t.IP == 0x0100) := by
  decide +kernel

theorem test_step_jcxz_CT10 :
    steps [0xE3, 0x10] (start [] 0xF002 []) (fun t =>
      t.IP == 0x0112) := by
  decide +kernel

theorem test_step_jmpRel8_CT12 :
    steps [0xEB, 0x10] (start [] 0xF002 []) (fun t =>
      t.IP == 0x0112) := by
  decide +kernel

theorem test_step_jmpRel16_CT14 :
    steps [0xE9, 0x00, 0x10] (start [] 0xF002 []) (fun t =>
      t.IP == 0x1103) := by
  decide +kernel

/-- The row CT17 (`rel16 = 0xFF00` is -256), and the hazard of 70_reset_and_hazards R448 in the words of 46_control_transfer R300 (a):
a backward jump as a large positive `rel16` that relies on wrap-around, here +0x7000 from 0xA003, is Runaway. -/
theorem test_step_jmpRel16_CT17_R448 :
    steps [0xE9, 0x00, 0xFF] { base with IP := 0x8000 } (fun t => t.IP == 0x7F03) ∧
      exec (.jmpRel16 0x7000) { base with IP := 0xA000 } = .fault .runaway :=
  ⟨by decide +kernel, rfl⟩

theorem test_step_jmpPtr_CT18 :
    steps [0xEA, 0x00, 0x02, 0x00, 0x10] (start [] 0xF002 []) (fun t =>
      t.reg .cs == 0x1000 && t.IP == 0x0200) := by
  decide +kernel

theorem test_step_jmpRm16_CT20 :
    steps [0xFF, 0xE3] (start [(.bx, 0x0400)] 0xF002 []) (fun t =>
      t.IP == 0x0400) := by
  decide +kernel

theorem test_step_jmpM1616_CT22 :
    steps [0xFF, 0x2E, 0x00, 0x03] (start [] 0xF002 [(0x10300, 0x00), (0x10301, 0x04), (0x10302, 0x00), (0x10303,
      0x20)]) (fun t =>
      t.reg .cs == 0x2000 && t.IP == 0x0400) := by
  decide +kernel

theorem test_step_callRel16_CT24 :
    steps [0xE8, 0xFD, 0x00] (start [] 0xF002 []) (fun t =>
      t.reg .sp == 0x00FE && t.IP == 0x0200 && t.readByte 0x300FE == 0x03 && t.readByte 0x300FF == 0x01) := by
  decide +kernel

theorem test_step_callPtr_CT26 :
    steps [0x9A, 0x00, 0x02, 0x00, 0x10] (start [] 0xF002 []) (fun t =>
      t.reg .sp == 0x00FC && t.reg .cs == 0x1000 && t.IP == 0x0200 && t.readByte 0x300FC == 0x05 &&
        t.readByte 0x300FD == 0x01 && t.readByte 0x300FF == 0xF0) := by
  decide +kernel

theorem test_step_callRm16_CT27 :
    steps [0xFF, 0xD3] (start [(.bx, 0x0400)] 0xF002 []) (fun t =>
      t.reg .sp == 0x00FE && t.IP == 0x0400 && t.readByte 0x300FE == 0x02 && t.readByte 0x300FF == 0x01) := by
  decide +kernel

theorem test_step_callM1616_CT30 :
    steps [0xFF, 0x1E, 0x00, 0x03] (start [] 0xF002 [(0x10300, 0x00), (0x10301, 0x04), (0x10302, 0x00), (0x10303,
      0x20)]) (fun t =>
      t.reg .sp == 0x00FC && t.reg .cs == 0x2000 && t.IP == 0x0400 && t.readByte 0x300FC == 0x04 &&
        t.readByte 0x300FD == 0x01 && t.readByte 0x300FF == 0xF0) := by
  decide +kernel

theorem test_step_ret_CT31 :
    steps [0xC3] (start [] 0xF002 [(0x30100, 0x03), (0x30101, 0x02)]) (fun t =>
      t.reg .sp == 0x0102 && t.IP == 0x0203) := by
  decide +kernel

theorem test_step_retImm16_CT32 :
    steps [0xC2, 0x04, 0x00] (start [] 0xF002 [(0x30100, 0x03), (0x30101, 0x02)]) (fun t =>
      t.reg .sp == 0x0106 && t.IP == 0x0203) := by
  decide +kernel

theorem test_step_retf_CT34 :
    steps [0xCB] (start [] 0xF002 [(0x30100, 0x03), (0x30101, 0x02), (0x30102, 0x00), (0x30103, 0x10)]) (fun t =>
      t.reg .sp == 0x0104 && t.reg .cs == 0x1000 && t.IP == 0x0203) := by
  decide +kernel

theorem test_step_retfImm16_CT35 :
    steps [0xCA, 0x02, 0x00] (start [] 0xF002 [(0x30100, 0x03), (0x30101, 0x02), (0x30102, 0x00), (0x30103, 0x10)]) (fun t =>
      t.reg .sp == 0x0106 && t.reg .cs == 0x1000 && t.IP == 0x0203) := by
  decide +kernel

theorem test_step_int_CT36 :
    steps [0xCD, 0x10] (start [] 0xF202 [(0x00040, 0x00), (0x00041, 0x02), (0x00042, 0x00), (0x00043, 0xF0)]) (fun t =>
      t.reg .sp == 0x00FA && t.IP == 0x0200 && t.flags.IF == false && t.readByte 0x300FA == 0x02 &&
        t.readByte 0x300FB == 0x01 && t.readByte 0x300FD == 0xF0 && t.readByte 0x300FE == 0x02 &&
        t.readByte 0x300FF == 0xF2) := by
  decide +kernel

theorem test_step_into_CT41 :
    steps [0xCE] (start [] 0xF802 [(0x00010, 0x00), (0x00011, 0x03), (0x00012, 0x00), (0x00013, 0x10)]) (fun t =>
      t.reg .sp == 0x00FA && t.reg .cs == 0x1000 && t.IP == 0x0300 && t.readByte 0x300FA == 0x01 &&
        t.readByte 0x300FB == 0x01 && t.readByte 0x300FD == 0xF0 && t.readByte 0x300FE == 0x02 &&
        t.readByte 0x300FF == 0xF8) := by
  decide +kernel

theorem test_step_iret_CT43 :
    steps [0xCF] (start [] 0xF002 [(0x30100, 0x02), (0x30101, 0x01), (0x30102, 0x00), (0x30103, 0x10), (0x30104, 0x02),
      (0x30105, 0x03)]) (fun t =>
      t.reg .sp == 0x0106 && t.reg .cs == 0x1000 && t.IP == 0x0102 && t.flags.TF == true && t.flags.IF == true) := by
  decide +kernel

theorem test_step_daa_BC2 :
    steps [0x27] (start [(.ax, 0x009A)] 0xF002 []) (fun t =>
      t.reg .ax == 0x0000 && t.IP == 0x0101 && t.flags.CF == true && t.flags.PF == true && t.flags.AF == true &&
        t.flags.ZF == true) := by
  decide +kernel

theorem test_step_das_BC9 :
    steps [0x2F] (start [(.ax, 0x0005)] 0xF012 []) (fun t =>
      t.reg .ax == 0x00FF && t.IP == 0x0101 && t.flags.CF == true && t.flags.PF == true && t.flags.SF == true) := by
  decide +kernel

theorem test_step_aaa_BC12 :
    steps [0x37] (start [(.ax, 0x000F)] 0xF002 []) (fun t =>
      t.reg .ax == 0x0105 && t.IP == 0x0101 && t.flags.CF == true && t.flags.AF == true) := by
  decide +kernel

theorem test_step_aas_BC16 :
    steps [0x3F] (start [(.ax, 0x01F9)] 0xF012 []) (fun t =>
      t.reg .ax == 0x0003 && t.IP == 0x0101 && t.flags.CF == true) := by
  decide +kernel

theorem test_step_aam_BC23 :
    steps [0xD4, 0x00] (start [(.ax, 0x1234)] 0xF002 [(0x00000, 0x00), (0x00001, 0x02), (0x00002, 0x00), (0x00003,
      0x10)]) (fun t =>
      t.reg .sp == 0x00FA && t.reg .cs == 0x1000 && t.IP == 0x0200 && t.readByte 0x300FB == 0x01 &&
        t.readByte 0x300FD == 0xF0 && t.readByte 0x300FE == 0x02 && t.readByte 0x300FF == 0xF0) := by
  decide +kernel

theorem test_step_aad_BC24 :
    steps [0xD5, 0x0A] (start [(.ax, 0x0603)] 0xF002 []) (fun t =>
      t.reg .ax == 0x003F && t.IP == 0x0102 && t.flags.PF == true) := by
  decide +kernel

theorem test_step_inAccImm8_IO1 :
    steps [0xE4, 0x80] (start [] 0xF002 [] [(0x80, 0x5A)]) (fun t =>
      t.reg .ax == 0x005A && t.IP == 0x0102) := by
  decide +kernel

theorem test_step_inAccDx_IO3 :
    steps [0xEC] (start [(.dx, 0x03F8)] 0xF002 [] [(0x3F8, 0x77)]) (fun t =>
      t.reg .ax == 0x0077 && t.IP == 0x0101) := by
  decide +kernel

theorem test_step_outImm8Acc_IO6 :
    steps [0xE7, 0x80] (start [(.ax, 0x1234)] 0xF002 []) (fun t =>
      t.IP == 0x0102 && t.ports.get 0x80 == 0x34 && t.ports.get 0x81 == 0x12) := by
  decide +kernel

theorem test_step_outDxAcc_IO8 :
    steps [0xEF] (start [(.ax, 0xBEEF), (.dx, 0xFFFF)] 0xF002 []) (fun t =>
      t.IP == 0x0101 && t.ports.get 0x0 == 0xBE && t.ports.get 0xFFFF == 0xEF) := by
  decide +kernel

theorem test_step_clc_IO9 :
    steps [0xF8] (start [] 0xF003 []) (fun t =>
      t.IP == 0x0101 && t.flags.CF == false) := by
  decide +kernel

theorem test_step_stc_IO10 :
    steps [0xF9] (start [] 0xF002 []) (fun t =>
      t.IP == 0x0101 && t.flags.CF == true) := by
  decide +kernel

theorem test_step_cli_IO11 :
    steps [0xFA] (start [] 0xF202 []) (fun t =>
      t.IP == 0x0101 && t.flags.IF == false) := by
  decide +kernel

theorem test_step_sti_IO12 :
    steps [0xFB] (start [] 0xF002 []) (fun t =>
      t.IP == 0x0101 && t.flags.IF == true) := by
  decide +kernel

theorem test_step_cld_IO13 :
    steps [0xFC] (start [] 0xF402 []) (fun t =>
      t.IP == 0x0101 && t.flags.DF == false) := by
  decide +kernel

theorem test_step_std_IO14 :
    steps [0xFD] (start [] 0xF002 []) (fun t =>
      t.IP == 0x0101 && t.flags.DF == true) := by
  decide +kernel

theorem test_step_cmc_IO15 :
    steps [0xF5] (start [] 0xF002 []) (fun t =>
      t.IP == 0x0101 && t.flags.CF == true) := by
  decide +kernel

theorem test_step_hlt_IO17 :
    steps [0xF4] (start [] 0xF002 []) (fun t =>
      t.IP == 0x0101) := by
  decide +kernel

theorem test_step_wait_IO18 :
    steps [0x9B] (start [] 0xF002 []) (fun t =>
      t.IP == 0x0101) := by
  decide +kernel

theorem test_step_lock_IO19 :
    steps [0xF0] (start [] 0xF002 []) (fun t =>
      t.IP == 0x0101) := by
  decide +kernel

theorem test_step_esc_IO20 :
    steps [0xDB, 0xE3] (start [] 0xF002 []) (fun t =>
      t.IP == 0x0102) := by
  decide +kernel

theorem test_step_putchar_IO24 :
    steps [0x0F, 0x00] (start [(.ax, 0x0041)] 0xF002 []) (fun t =>
      t.IP == 0x0102 && t.hostCalls == [.charOut 0x41]) := by
  decide +kernel

/-! ### Witnesses: what meets the hypotheses of each statement -/

/-- The base state with the bytes of an instruction at `CS:IP`. -/
def holding (bs : List Byte) : State := base.putBytes base.fetchAddr bs

/-- Whether a next state is answered. -/
def isNext (r : Result) : Bool :=
  match r with
  | .next _ => true
  | .fault _ => false
  | .refused _ => false

/-- The base state with its stack over the flag cells `CF` and `PF`. -/
def flagStack : State := start [(.ss, 0xF000), (.sp, 0x002A)] 0xF002 []

/-- Every member of a list has a property, by checking the members. -/
theorem forall_mem_of_all {α : Type} {p : α → Prop} [DecidablePred p] {l : List α}
    (h : (l.all fun a => decide (p a)) = true) : ∀ a ∈ l, p a :=
  fun a ha => of_decide_eq_true (List.all_eq_true.mp h a ha)

theorem base_plainStack : PlainStack base := by
  refine ⟨⟨?_, ?_⟩, ⟨?_, ?_⟩, ?_, ?_⟩ <;> decide +kernel

theorem base_fits : base.Fits 1 ∧ base.Fits 5 := by
  unfold State.Fits
  decide +kernel

theorem witness_DecodeOfEncode :
    Instr.wf (.movRRm .word 0 (.mem (.disp8 .bp 0x04))) = true ∧ Instr.wf (.reserved0F 0xFF) = true := by
  decide +kernel

theorem witness_EncodeOfDecode :
    decode [0x89, 0xD8, 0xFF] = .ok (.movRmR .word 3 (.reg 0), [0xFF]) ∧
      6 ≤ [(0x81 : Byte), 0x86, 0xFF, 0xFF, 0x34, 0x12].length := by
  refine ⟨by rfl, by decide⟩

theorem witness_StepKeepsInvariant : (holding [0x90]).Inv ∧ isNext (step (holding [0x90])) = true := by
  refine ⟨⟨?_, ?_, ?_, ?_, ?_, ?_, ?_, ?_, ?_, ?_⟩, ?_⟩ <;> decide +kernel

/-- The image of scenario S6 (95_test_vectors, section 2) at launch: it stands at linear 0xF0100,
  and its first instruction runs. -/
def launched : State := State.launch [0xB8, 0x34, 0x12, 0xA3, 0x00, 0x01, 0xEA, 0x00, 0x00, 0x00, 0x00]

theorem test_launch_S6 :
    launched.fetchAddr = 0xF0100 ∧ launched.readByte 0xF0106 = 0xEA ∧
      (match step launched with
        | .next t => decide (t.reg .ax = 0x1234 ∧ t.IP = 0x0103)
        | .fault _ => false
        | .refused _ => false) = true := by
  decide +kernel

/-- An image, and bytes on both sides of the cut. -/
theorem witness_ResetState :
    base.mem.wf memSize = true ∧ 0xFEFF < 0xFF00 ∧ ¬0xFF00 < 0xFF00 ∧ [(0xB8 : Byte), 0x34, 0x12][2]? = some 0x12 ∧
      Instr.wf (.movR16Imm16 0 0x1234) = true := by
  decide +kernel

theorem witness_StepRunsDecoded :
    Instr.wf (.movR16Imm16 3 0x1234) = true ∧ (holding [0xBB, 0x34, 0x12]).runState = .running ∧
      ¬((holding [0xBB, 0x34, 0x12]).reg .cs = 0 ∧ (holding [0xBB, 0x34, 0x12]).IP = 0) ∧
      ∀ k b, (encode (.movR16Imm16 3 0x1234))[k]? = some b →
        (holding [0xBB, 0x34, 0x12]).readByte
          (lin ((holding [0xBB, 0x34, 0x12]).reg .cs) (holding [0xBB, 0x34, 0x12]).IP + BitVec.ofNat 20 k) = b := by
  refine ⟨by decide +kernel, by decide +kernel, by decide +kernel, fun k b h => ?_⟩
  match k, h with
  | 0, h => exact (Option.some.inj h).symm ▸ (by decide +kernel)
  | 1, h => exact (Option.some.inj h).symm ▸ (by decide +kernel)
  | 2, h => exact (Option.some.inj h).symm ▸ (by decide +kernel)
  | k + 3, h => exact absurd h (by simp [encode, wordBytes])

/-- The halt state, and the two states next to it. -/
theorem witness_HaltAtZero :
    ((start [(.cs, 0)] 0xF002 []).reg .cs = 0 ∧ { start [(.cs, 0)] 0xF002 [] with IP := 0 }.IP = 0) ∧
      ({ start [(.cs, 0)] 0xF002 [(0x00001, 0x90)] with IP := 1 }.runState = .running ∧
        isNext (step { start [(.cs, 0)] 0xF002 [(0x00001, 0x90)] with IP := 1 }) = true) ∧
      isNext (step { start [(.cs, 1)] 0xF002 [(0x00010, 0x90)] with IP := 0 }) = true := by
  decide +kernel

/-- A trap, a tick that falls due in the very cycle, and a tick deferred by each of its conditions. -/
theorem witness_EndOfCycle :
    { base with trapShadow := true }.trapShadow = true ∧
      ({ start [] 0xF202 [] with tickCounter := 19999 }.flags.IF = true ∧
        { start [] 0xF202 [] with tickCounter := 19999 }.flags.TF = false ∧ base.trapShadow = false ∧
        base.segOvrCnt = 0 ∧ base.repCnt = 0 ∧ (19999 + 1) % base.params.tickPeriod = 0) ∧
      (start [] 0xF302 []).flags.TF = true ∧ base.flags.IF = false := by
  decide +kernel

theorem witness_EveryCycleCounts :
    base.runState = .running ∧ ¬(base.reg .cs = 0 ∧ base.IP = 0) ∧ isNext (step (holding [0x90])) = true ∧
      { holding [0x90] with tickPending := true }.tickPending = true ∧
      isNext (step { holding [0x90] with tickCounter := 19999 }) = true ∧ (19999 + 1) % base.params.tickPeriod = 0 := by
  decide +kernel

theorem witness_OnlyTheseReach :
    isNext (exec .nop base) = true ∧ ¬Instr.nop.SetsCounter ∧ ¬Instr.nop.ReachesPorts ∧ ¬Instr.nop.CallsHost ∧
      isNext (exec (.segOverride .es) base) = true ∧ isNext (exec (.inAccDx .byte) base) = true ∧
      isNext (exec .putchar base) = true := by
  refine ⟨by decide +kernel, ?_, ?_, ?_, by decide +kernel, by decide +kernel, by decide +kernel⟩ <;>
    simp [Instr.SetsCounter, Instr.ReachesPorts, Instr.CallsHost]

theorem witness_TickWaitsForPrefixed :
    (holding [0x90]).runState = .running ∧ decode (holding [0x90]).fetchBytes = .ok (.nop, [0, 0, 0, 0, 0]) ∧
      isNext (exec .nop (holding [0x90]).startCycle) = true ∧ isNext (step (holding [0x90])) = true ∧
      decode (holding [0x26]).fetchBytes = .ok (.segOverride .es, [0, 0, 0, 0, 0]) ∧
      isNext (step { holding [0x26] with tickPending := true, repCnt := 2 }) = true ∧
      isNext (step { holding [0x26] with tickCounter := 19999 }) = true ∧ (19999 + 1) % base.params.tickPeriod = 0 := by
  refine ⟨by decide +kernel, by rfl, by decide +kernel, by decide +kernel, by rfl, by decide +kernel,
    by decide +kernel, by decide +kernel⟩

theorem witness_RegisterHalves : (3 : RegNum).val < 4 ∧ ¬(4 : RegNum).val < 4 := by decide

/-- The last byte below the page, both ends of the unassigned offsets, the last byte of memory. -/
theorem witness_RegisterPageRead :
    (0xEFFFF < 2 ^ 20 ∧ 0xEFFFF < 0xF0000) ∧ (0xF001C ≤ 0xF0027 ∧ 0xF0027 < 0xF0028) ∧
      (0xF0032 ≤ 0xFFFFF ∧ 0xFFFFF < 2 ^ 20) := by
  decide

/-- Each clause at both ends of its range; the ranges of the five clauses do not overlap. -/
theorem witness_ByteStore :
    base.mem.wf memSize = true ∧
      (0xF0017 < 0xF0018 ∧ 0xF001A ≤ 0xF001A ∧ 0xF0027 < 0xF0028 ∧ 0xF0032 ≤ 0xF0032 ∧ 0xFFFFF < 2 ^ 20) ∧
      isNext (base.writeMem .byte 0xF001A 0xAB) = true ∧ isNext (base.writeMem .byte 0xF0032 0xAB) = true ∧
      isNext (base.writeMem .byte 0xF0017 0xAB) = true ∧ isNext (base.writeMem .byte 0xF0027 0xAB) = true ∧
      isNext (base.writeMem .byte 0xF0028 1) = true ∧ isNext (base.writeMem .byte 0xF0030 0) = true ∧
      isNext (base.writeMem .byte 0xF0018 0) = true ∧ isNext (base.writeMem .byte 0xF0031 0) = true ∧
      isNext (base.writeMem .byte 0xF0030 2) = false ∧ isNext (base.writeMem .byte 0xF0019 1) = false := by
  decide +kernel

theorem witness_OperandAddresses :
    (AddrForm.bpDi, SReg.ss, base.reg .bp + base.reg .di) ∈
        [(AddrForm.bxSi, SReg.ds, base.reg .bx + base.reg .si), (.bpDi, .ss, base.reg .bp + base.reg .di)] ∧
      base.segOvrCnt = 0 ∧ { base with segOvrCnt := 1 }.segOvrCnt ≠ 0 := by
  decide +kernel

theorem witness_Deliver : base.mem.wf memSize = true ∧ PlainStack base := ⟨by decide +kernel, base_plainStack⟩

theorem witness_DeliverThenIret : base.mem.wf memSize = true ∧ PlainStack base := ⟨by decide +kernel, base_plainStack⟩

theorem witness_PushAndPop :
    base.mem.wf memSize = true ∧ canStore .word (base.stackBelow 2) 0x1234 = true ∧
      canStore .word (flagStack.stackBelow 2) 0x0002 = false ∧ Plain .word (base.stackBelow 2) :=
  ⟨by decide +kernel, by decide +kernel, by decide +kernel, base_plainStack.1⟩

/-- The last offset at which each still fits, and the first at which it does not; `OF` set and clear. -/
theorem witness_SoftwareInterrupts :
    ({ base with IP := 0xFFFD }.Fits 2 ∧ ¬{ base with IP := 0xFFFE }.Fits 2) ∧
      ({ base with IP := 0xFFFE }.Fits 1 ∧ ¬{ base with IP := 0xFFFF }.Fits 1) ∧
      (start [] 0xF802 []).flags.OF = true ∧ base.flags.OF = false ∧ base.mem.wf memSize = true ∧ PlainStack base := by
  refine ⟨?_, ?_, by decide +kernel, by decide +kernel, by decide +kernel, base_plainStack⟩ <;>
    (unfold State.Fits; decide +kernel)

/-- A zero divisor, the smallest quotient that does not fit, and the signed quotients just outside each end. -/
theorem witness_DivideFault :
    (base.readLoc .byte (.reg 3)).toNat = 0 ∧ (base.readLoc .byte (.reg 3)).toInt = 0 ∧
      2 ^ 8 ≤ ((start [(.ax, 0x0100), (.bx, 1)] 0xF002 []).wideAcc .byte).toNat /
        ((start [(.ax, 0x0100), (.bx, 1)] 0xF002 []).readLoc .byte (.reg 3)).toNat ∧
      ¬((128 : Int).tdiv 1 ≤ 2 ^ 7 - 1) ∧ ¬(-2 ^ 7 ≤ (-129 : Int).tdiv 1) ∧ PlainStack base :=
  ⟨by decide +kernel, by decide +kernel, by decide +kernel, by decide, by decide, base_plainStack⟩

/-- Taken and not, and targets at and past both ends of the segment. -/
theorem witness_ConditionalJumpsUnsigned :
    (start [] 0xF802 []).flags.OF = true ∧ base.flags.OF = false ∧ (start [] 0xF043 []).flags.ZF = true ∧
      (start [] 0xF043 []).flags.CF = true ∧ (0 : Int) ≤ 0x7E + 2 + (0x80 : Byte).toInt ∧
      ¬(0 : Int) ≤ 0x7D + 2 + (0x80 : Byte).toInt ∧ ¬((0xFFFE : Int) + 2 ≤ 0xFFFF) := by
  decide +kernel

theorem witness_ConditionalJumpsSigned :
    (start [] 0xF8C6 []).flags.SF = true ∧ (start [] 0xF8C6 []).flags.OF = true ∧ (start [] 0xF8C6 []).flags.PF = true ∧
      (start [] 0xF082 []).flags.SF ≠ (start [] 0xF082 []).flags.OF ∧ base.flags.ZF = false ∧ base.flags.PF = false := by
  decide +kernel

theorem witness_JumpsAfterCompare :
    { base with IP := 0xFFFD }.Fits (2 + (RM.reg 0).dispLen) ∧ { base with IP := 0xFFFB }.Fits (4 + (RM.reg 0).dispLen) ∧
      base.Fits (3 + (RM.reg 0).dispLen) ∧ base.Fits 2 ∧ base.Fits 3 := by
  unfold State.Fits
  decide +kernel

/-- Counts that end at 0 and not, `ZF` set and clear. -/
theorem witness_Loops :
    (start [(.cx, 1)] 0xF002 []).reg .cx - 1 = 0 ∧ base.reg .cx - 1 ≠ 0 ∧ base.flags.ZF = false ∧
      (start [] 0xF042 []).flags.ZF = true ∧ base.reg .cx = 0 ∧ (start [(.cx, 1)] 0xF002 []).reg .cx ≠ 0 := by
  decide +kernel

theorem witness_Jumps : (0 : Int) ≤ 0xFF7E + 2 + (0x7F : Byte).toInt ∧ (0xFF7E : Int) + 2 + (0x7F : Byte).toInt ≤ 0xFFFF := by
  decide

theorem witness_NearCalls :
    base.mem.wf memSize = true ∧ base.Fits 3 ∧ canStore .word (base.stackBelow 2) (base.IP + 3) = true ∧
      canStore .word (flagStack.stackBelow 2) (flagStack.IP + 3) = false ∧ ¬{ base with IP := 0xFFFD }.Fits 3 := by
  refine ⟨by decide +kernel, ?_, by decide +kernel, by decide +kernel, ?_⟩ <;> (unfold State.Fits; decide +kernel)

theorem witness_FarCalls :
    base.Fits 5 ∧ base.mem.wf memSize = true ∧ Plain .word (base.stackBelow 2) ∧ Plain .word (base.stackBelow 4) ∧
      ¬{ base with IP := 0xFFFB }.Fits 5 := by
  refine ⟨base_fits.2, by decide +kernel, base_plainStack.1, base_plainStack.2.1, ?_⟩
  unfold State.Fits
  decide +kernel

/-- A store that is allowed, one that is refused, and an instruction that no longer fits. -/
theorem witness_MovesToMemory :
    base.mem.wf memSize = true ∧ canStoreLoc .word (.mem 0x12345) 0xFFFF = true ∧
      canStoreLoc .byte (.mem 0xF0028) 0x02 = false ∧ canStoreLoc .word (.reg 7) 0xFFFF = true ∧ base.Fits 2 ∧
      ¬{ base with IP := 0xFFFE }.Fits 2 := by
  refine ⟨by decide +kernel, by decide +kernel, by decide +kernel, by decide +kernel, ?_, ?_⟩ <;>
    (unfold State.Fits; decide +kernel)

theorem witness_RegisterLoads :
    base.Fits (2 + (MemOperand.disp16 .bx 0).dispLen) ∧ (Instr.les 7 (.base .bx) = .les 7 (.base .bx) ∧ Reg.es = .es) := by
  refine ⟨?_, rfl, rfl⟩
  unfold State.Fits
  decide +kernel

theorem witness_Exchanges :
    base.mem.wf memSize = true ∧ canStoreLoc .word ((RM.mem (.base .bx)).loc base) (base.readReg .word 0) = true ∧
      (∀ a ∈ bytesAt .word (regAddr .word 0), a ∉ ((RM.mem (.base .bx)).loc base).bytes .word) ∧ base.Fits 2 := by
  refine ⟨by decide +kernel, by decide +kernel, forall_mem_of_all (by decide +kernel), ?_⟩
  unfold State.Fits
  decide +kernel

theorem witness_PushInstructions :
    base.mem.wf memSize = true ∧
      (Instr.pushf, base.flags.pack, 1) ∈
        [(Instr.pushR16 4, (base.setReg .sp (base.reg .sp - 2)).reg (Reg.ofNum 4), 1), (.pushf, base.flags.pack, 1)] ∧
      canStore .word (base.stackBelow 2) base.flags.pack = true ∧
      canStore .word (flagStack.stackBelow 2) flagStack.flags.pack = false := by
  decide +kernel

theorem witness_PopInstructions :
    base.mem.wf memSize = true ∧ (Instr.popR16 4, Reg.ofNum 4) ∈ [(Instr.popR16 4, Reg.ofNum 4), (.popEs, .es)] ∧
      Reg.es ≠ .sp ∧ canStoreLoc .word (.mem 0x12345) (base.readMem .word (lin (base.reg .ss) (base.reg .sp))) = true := by
  decide +kernel

theorem witness_FlagInstructions :
    (Instr.clc, (0xF8 : Byte), Flag.cf, false) ∈ [(Instr.clc, (0xF8 : Byte), Flag.cf, false), (.stc, 0xF9, .cf, true)] ∧
      base.Fits 1 :=
  ⟨by decide +kernel, base_fits.1⟩

theorem witness_NoOperations :
    (Instr.esc 7 7 (.mem (.disp16 .bp 0)), 4) ∈ [(Instr.nop, 1), (.esc 7 7 (.mem (.disp16 .bp 0)), 4)] := by
  decide +kernel

theorem witness_IncrementDecrement :
    base.mem.wf memSize = true ∧ canStoreLoc .word (.reg 7) (base.readLoc .word (.reg 7) + 1) = true ∧
      canStoreLoc .byte (.mem 0xF0028) (base.readLoc .byte (.mem 0xF0028) - 1) = false := by
  decide +kernel

theorem witness_NotNegTest :
    base.mem.wf memSize = true ∧ canStoreLoc .word (.reg 0) (~~~base.readLoc .word (.reg 0)) = true ∧
      canStoreLoc .byte (.mem 0xF0018) (~~~base.readLoc .byte (.mem 0xF0018)) = false := by
  decide +kernel

theorem witness_TwoOperandForms :
    base.mem.wf memSize = true ∧ AluOp.add ≠ .cmp ∧
      canStoreLoc .word (.reg 0) (aluValue .add (base.readLoc .word (.reg 0)) 1 base.flags.CF) = true ∧
      canStoreLoc .byte (.mem 0xF0031) (aluValue .add (base.readLoc .byte (.mem 0xF0031)) 1 base.flags.CF) = false := by
  decide +kernel

theorem witness_TwoOperandRules :
    0 = Flags.reset.CF.toNat ∧ 1 = { Flags.reset with CF := true }.CF.toNat ∧ AluOp.cmp ∈ [AluOp.sub, .cmp] ∧
      AluOp.xor ∈ [AluOp.or, .and, .xor] := by
  decide

/-- Counts 0, 1, 31 and 32; a store that is allowed and one that is refused. -/
theorem witness_ShiftForms :
    base.mem.wf memSize = true ∧ (0x20 : Byte).toNat % 32 = 0 ∧ (0xFF : Byte).toNat % 32 = 31 ∧
      canStoreLoc .byte (.reg 0) (shiftValue .shl (base.readLoc .byte (.reg 0)) base.flags.CF 1) = true ∧
      canStoreLoc .byte (.mem 0xF0028)
        (shiftValue .shl ((start [] 0xF003 []).readLoc .byte (.mem 0xF0028)) (start [] 0xF003 []).flags.CF 1) = false := by
  decide +kernel

theorem witness_ShiftRules : (1 ≤ 1 ∧ 1 ≤ 31) ∧ (1 ≤ 31 ∧ 31 ≤ 31) ∧ shiftSetsSZP .sar = true := by decide

/-- The largest quotients that fit, unsigned and at both signed ends. -/
theorem witness_Divides :
    (base.reg .cx ≠ 1 ∧ (start [(.ax, 0x00FF), (.bx, 1)] 0xF002 []).readLoc .byte (.reg 3) ≠ 0 ∧ 0x00FF / 1 < 2 ^ 8) ∧
      0xFFFF / 1 < 2 ^ 16 ∧ (-128 ≤ (-128 : Int).tdiv 1 ∧ (127 : Int).tdiv 1 ≤ 127) ∧
      -32768 ≤ (-32768 : Int).tdiv 1 ∧ (32767 : Int).tdiv 1 ≤ 32767 := by
  decide +kernel

theorem witness_DecimalAdjustments :
    false = (decide (9 < base.AL.toNat % 16) || base.flags.AF) ∧ false = (decide (0x99 < base.AL.toNat) || base.flags.CF) ∧
      (0x0A : Byte) ≠ 0 := by
  decide +kernel

theorem witness_DecimalAddition :
    99 < 100 ∧ (start [(.ax, 0x0099)] 0xF002 []).AL = BitVec.ofNat 8 (99 / 10 * 16 + 99 % 10) ∧
      (start [(.ax, 0x0099)] 0xF002 []).Fits 3 := by
  refine ⟨by decide, by decide +kernel, ?_⟩
  unfold State.Fits
  decide +kernel

theorem witness_StringElements :
    base.mem.wf memSize = true ∧ base.repCnt = 0 ∧ Plain .byte (base.dstAt .byte 0) ∧ Plain .word (base.dstAt .word 0) ∧
      base.Fits 1 :=
  ⟨by decide +kernel, by decide +kernel, show cellAt _ = _ by decide +kernel,
    ⟨by decide +kernel, by decide +kernel⟩, base_fits.1⟩

/-- The states that iterations go through. -/
def goesThrough (one : State → Result) (s : State) : Nat → State
  | 0 => s
  | k + 1 =>
    match one (goesThrough one s k) with
    | .next t => t
    | .fault _ => s
    | .refused _ => s

/-- `REP MOVSB` over three bytes to the destination one byte above the source, in ordinary memory; its first two iterations. -/
def overlapping : State :=
  { start [(.cx, 3), (.es, 0x1000), (.si, 0x0200), (.di, 0x0201)] 0xF002 [(0x10200, 0x55)] with repCnt := 1 }

theorem witness_RepeatedStrings_iterates :
    overlapping.Repeats 3 ∧ Iterates (State.movsOnce .byte) overlapping (goesThrough (State.movsOnce .byte) overlapping) 2 := by
  refine ⟨⟨by decide +kernel, by decide +kernel⟩, rfl, ?_⟩
  intro k hk
  match k, hk with
  | 0, _ => rfl
  | 1, _ => rfl

theorem witness_RepeatedStrings_overlap :
    Plain .byte (overlapping.srcAt .byte 0) ∧ (∀ k < 3, Plain .byte (overlapping.dstAt .byte k)) ∧
      ∀ k, k + 1 < 3 → overlapping.srcAt .byte (k + 1) = overlapping.dstAt .byte k := by
  have h : ∀ k < 3,
    cellAt (overlapping.dstAt .byte k) = .plain ∧ overlapping.srcAt .byte (k + 1) = overlapping.dstAt .byte k := by
    decide +kernel
  exact ⟨show cellAt _ = _ by decide +kernel, fun k hk => (h k hk).1, fun k hk => (h k (Nat.lt_of_succ_lt hk)).2⟩

/-- An iteration of `REP STOSB` whose store over the cell of `CF` is refused. -/
theorem witness_RepeatedStrings_refused :
    State.stosOnce .byte { start [(.cx, 2), (.ax, 2), (.es, 0xF000), (.di, 0x0028)] 0xF002 [] with repCnt := 1 } =
      .refused .breaksPageInvariant := by
  rfl

/-- A repeat prefix with `CX = 2`, and one with `CX = 0`. -/
theorem witness_RepeatedStrings :
    { start [(.cx, 2)] 0xF002 [] with repCnt := 1 }.Repeats 2 ∧ { base with repCnt := 1 }.Repeats 0 ∧
      (∀ k < 2, Plain .byte (base.dstAt .byte k) ∧ Plain .byte (base.srcAt .byte k) ∧
        ∀ a ∈ bytesAt .byte (base.srcAt .byte k), a ∉ base.dstBytes .byte 2) ∧
      Plain .byte (base.srcAt .byte (2 - 1)) := by
  refine ⟨⟨by decide +kernel, by decide +kernel⟩, ⟨by decide +kernel, by decide +kernel⟩, ?_, show cellAt _ = _ by decide +kernel⟩
  have h : ∀ k < 2, cellAt (base.dstAt .byte k) = .plain ∧ cellAt (base.srcAt .byte k) = .plain ∧
      ((bytesAt .byte (base.srcAt .byte k)).all fun a => decide (a ∉ base.dstBytes .byte 2)) = true := by
    decide +kernel
  exact fun k hk => ⟨(h k hk).1, (h k hk).2.1, forall_mem_of_all (h k hk).2.2⟩

theorem witness_CompareStrings : base.repCnt = 0 ∧ { base with repCnt := 1 }.Repeats 0 :=
  ⟨by decide +kernel, by decide +kernel, by decide +kernel⟩

/-- `REPE CMPSB` over three bytes of which the second differs: it ends at the pair `m = 1`. -/
theorem witness_RepeatedCompare :
    { start [(.cx, 3)] 0xF002 [(0x10001, 0x41)] with repCnt := 1, repMode := .repe }.Repeats 3 ∧ 1 < 3 ∧
      (∀ k < 3, Plain .byte (base.srcAt .byte k) ∧ Plain .byte (base.dstAt .byte k)) ∧
      (∀ k < 1, (start [] 0xF002 [(0x10001, 0x41)]).readMem .byte (base.srcAt .byte k) =
        (start [] 0xF002 [(0x10001, 0x41)]).readMem .byte (base.dstAt .byte k)) ∧
      (start [] 0xF002 [(0x10001, 0x41)]).readMem .byte (base.srcAt .byte 1) ≠
        (start [] 0xF002 [(0x10001, 0x41)]).readMem .byte (base.dstAt .byte 1) := by
  refine ⟨⟨by decide +kernel, by decide +kernel⟩, by decide, ?_, by decide +kernel, by decide +kernel⟩
  show ∀ k < 3, cellAt _ = _ ∧ cellAt _ = _
  decide +kernel

/-- Port 0x80; and the word at 0xFFFF, whose second byte is port 0. -/
theorem witness_PlainPorts :
    base.mem.wf memSize = true ∧ base.ports.wf portCount = true ∧ (∀ q ∈ portsOf .byte 0x0080, q ∉ Config.specialPorts) ∧
      (∀ q ∈ portsOf .word 0xFFFF,
        q ∉ Config.specialPorts) ∧ base.params.deviceEverywhere = false ∧ (0x0080 : Word) = (0x80 : Byte).setWidth 16 ∧
      (start [(.dx, 0xFFFF)] 0xF002 []).reg .dx = 0xFFFF :=
  ⟨by decide +kernel, by decide +kernel, forall_mem_of_all (by decide +kernel), forall_mem_of_all (by decide +kernel), by rfl,
    by decide +kernel, by decide +kernel⟩

/-- The base state with a device that declares a byte of ordinary memory,
  the bytes on both sides of the end of the register page, of which
it may not modify that in the page. -/
def deviced (everywhere : Bool) : State :=
  { base with params := { base.params with deviceBytes := [0x00417, 0xF0100, 0xF00FF], deviceEverywhere := everywhere } }

/-- Both kinds of instance, at a special port, at the plain ports next to one, and at words that lie over both. -/
theorem witness_SpecialPorts :
    base.mem.wf memSize = true ∧ base.ports.wf portCount = true ∧
      (deviced false).deviceCells .byte 0x0020 = [0x00417, 0xF0100] ∧ (deviced false).deviceCells .byte 0x001F = [] ∧
      (deviced true).deviceCells .byte 0x001F = [0x00417, 0xF0100] ∧
      (0x001F ∉ Config.specialPorts ∧ (0x001F : Word) + 1 ∈ Config.specialPorts) ∧
      (0x0020 ∈ Config.specialPorts ∧ (0x0020 : Word) + 1 ∉ Config.specialPorts) ∧
      (0x03D3 ∉ Config.specialPorts ∧ (0x03D3 : Word) + 1 ∈ Config.specialPorts) ∧
      (0x03DA ∈ Config.specialPorts ∧ (0x03DA : Word) + 1 ∉ Config.specialPorts) := by
  decide +kernel

/-- The base state with a buffer of 8 bytes and a placed millisecond field. -/
def hooked : State :=
  { start [(.ax, 8)] 0xF002 [] with params := { base.params with rtcMsAddr := 0x00500, rtcMsLen := 2 } }

theorem witness_Hooks :
    hooked.mem.wf memSize = true ∧
      (∀ a ∈ bytesFrom (lin (hooked.reg .es) (hooked.reg .bx)) (hooked.reg .ax).toNat, cellAt a = .plain) ∧
      (∀ a ∈ bytesFrom (lin (hooked.reg .es) (hooked.reg .bx)) 40 ++ bytesFrom hooked.params.rtcMsAddr hooked.params.rtcMsLen,
        cellAt a = .plain) ∧
      (32 ≤ 35 ∧ 35 < 36 ∧
        lin (hooked.reg .es) (hooked.reg .bx) + BitVec.ofNat 20 35 ∉
          bytesFrom hooked.params.rtcMsAddr hooked.params.rtcMsLen) :=
  ⟨by decide +kernel, forall_mem_of_all (by decide +kernel), forall_mem_of_all (by decide +kernel), by decide +kernel⟩

theorem witness_ReservedEncodings :
    base.runState = .running ∧ ¬(base.reg .cs = 0 ∧ base.IP = 0) ∧ reservedBytes 0x0F 0x04 = true ∧
      reservedBytes 0x0F 0x03 = false ∧ Instr.reservedFF3 7 ∈ [Instr.reservedD6, .reservedFF3 7] := by
  decide +kernel

end Sys2Proof.Tests
end

section
/-! PROOFS. The decoder reads back what the encoder writes (30_encoding R90 to R103): one lemma for each part of an encoding, then
the instructions. -/

namespace Sys2Proof

/-! ### The first byte (R102) -/

@[simp] theorem Opcode.ofByte_byte (op : Opcode) : Opcode.ofByte op.byte = op := by
  cases op with
  | aluRmR a w d => cases a <;> cases w <;> cases d <;> rfl
  | aluAccImm a w => cases a <;> cases w <;> rfl
  | jcc c => cases c <;> rfl
  | grp1Imm8 op82 => cases op82 <;> rfl
  | grp2 w count => cases w <;> cases count <;> rfl
  | rep mode => cases mode <;> rfl
  | pushSreg sr | segOverride sr => cases sr <;> rfl
  | incR r | decR r | pushR r | popR r | xchgAx r | movR8Imm r | movR16Imm r => revert r; decide
  | reserved60to6F x | reservedC8C9 x | esc x => revert x; decide
  | testRmR w | xchgRmR w | movRmR w | movRRm w | movAccMoffs w | movMoffsAcc w | movs w | cmps w | testAccImm w | stos w
  | lods w | scas w | grp2Imm w | movRmImm w | inImm w | outImm w | inDx w | outDx w | grp3 w => cases w <;> rfl
  | _ => rfl

@[simp] theorem decode_byte_cons (op : Opcode) (bs : List Byte) : decode (op.byte :: bs) = decodeBody op bs :=
  congrArg (decodeBody · bs) op.ofByte_byte

/-! ### Operand bytes (R91, R97) -/

section

variable (k : Word → List Byte → Decoded) (kb : Byte → List Byte → Decoded) (km : ModRM → List Byte → Decoded)
  (rest : List Byte)

@[simp] theorem takeByte_cons (b : Byte) : takeByte (b :: rest) kb = kb b rest := rfl

@[simp] theorem takeWord_wordBytes (v : Word) : takeWord (wordBytes v ++ rest) k = k v rest := by
  have hi : (v >>> 8).setWidth 8 = Machine.byteOf true v := BitVec.setWidth_ushiftRight_eq_extractLsb ..
  have h : (v >>> 8).setWidth 8 ++ v.setWidth 8 = v := hi ▸ Machine.byteOf_append_byteOf v
  exact congrArg (k · rest) h

@[simp] theorem ModRM.ofByte_byte (m : ModRM) : ModRM.ofByte m.byte = m := by
  obtain ⟨⟨mod, hmod⟩, ⟨reg, hreg⟩, ⟨rm, hrm⟩⟩ := m
  simp only [ModRM.ofByte, ModRM.byte, BitVec.toNat_ofNat, ModRM.mk.injEq, Fin.ext_iff, Fin.val_ofNat]
  omega

@[simp] theorem takeModRM_byte_cons (m : ModRM) : takeModRM (m.byte :: rest) km = km m rest :=
  congrArg (km · rest) m.ofByte_byte

end

/-! ### The r/m operand (R94, R95) -/

/-- The ModRM byte of `rmBytes`, as its fields. -/
def RM.modRM (rm : RM) (reg : RegNum) : ModRM :=
  match rm with
  | .reg r => ⟨3, reg, r⟩
  | .mem m => ⟨m.mod, reg, m.rmField⟩

/-- The displacement of `rmBytes`. -/
def RM.dispBytes : RM → List Byte
  | .reg _ => []
  | .mem m => m.dispBytes

theorem rmBytes_eq (reg : RegNum) (rm : RM) : rmBytes reg rm = (rm.modRM reg).byte :: rm.dispBytes := by cases rm <;> rfl

@[simp] theorem RM.modRM_reg (rm : RM) (reg : RegNum) : (rm.modRM reg).reg = reg := by cases rm <;> rfl

@[simp] theorem AddrForm.ofNum_num (f : AddrForm) : AddrForm.ofNum f.num = f := by cases f <;> rfl

theorem AddrForm.num_ne_six {f : AddrForm} (h : f ≠ .bp) : f.num ≠ 6 := by
  cases f with
  | bp => exact absurd rfl h
  | _ => decide

@[simp] theorem takeRM_dispBytes {rm : RM} (h : rm.wf = true) (reg : RegNum) (rest : List Byte)
    (k : RM → List Byte → Decoded) : takeRM (rm.modRM reg) (rm.dispBytes ++ rest) k = k rm rest := by
  match rm with
  | .reg r => rfl
  | .mem (.direct a) => exact takeWord_wordBytes (fun a => k (.mem (.direct a))) rest a
  | .mem (.base f) =>
    have hf : f.num ≠ 6 := f.num_ne_six (of_decide_eq_true h)
    simp [takeRM, RM.modRM, MemOperand.mod, MemOperand.rmField, hf, RM.dispBytes, MemOperand.dispBytes]
  | .mem (.disp8 f d) =>
    simp [takeRM, RM.modRM, MemOperand.mod, MemOperand.rmField, RM.dispBytes, MemOperand.dispBytes]
  | .mem (.disp16 f d) =>
    simp [takeRM, RM.modRM, MemOperand.mod, MemOperand.rmField, RM.dispBytes, MemOperand.dispBytes]

theorem takeRegRM_rmBytes {rm : RM} (h : rm.wf = true) (reg : RegNum) (rest : List Byte)
    (k : RegNum → RM → List Byte → Decoded) : takeRegRM (rmBytes reg rm ++ rest) k = k reg rm rest := by
  simp [takeRegRM, rmBytes_eq, h]

theorem takeModRM_rmBytes (reg : RegNum) (rm : RM) (rest : List Byte) (k : ModRM → List Byte → Decoded) :
    takeModRM (rmBytes reg rm ++ rest) k = k (rm.modRM reg) (rm.dispBytes ++ rest) := by
  rw [rmBytes_eq, List.cons_append, takeModRM_byte_cons]

/-! ### Groups (R103) -/

@[simp] theorem SReg.ofRegNum_regNum (sr : SReg) : SReg.ofRegNum sr.regNum = some sr := by cases sr <;> rfl

theorem SReg.ofRegNum_eq_none {r : RegNum} (h : 4 ≤ r.val) : SReg.ofRegNum r = none := by
  revert r
  decide

theorem decodeExt_reserved {sub : Byte} (h : 4 ≤ sub.toNat) : decodeExt sub = .reserved0F sub := by
  have hne : ∀ n : Nat, n < 4 → sub ≠ BitVec.ofNat 8 n := fun n hn e => by
    rw [e, BitVec.toNat_ofNat] at h
    omega
  simp [decodeExt, hne 0, hne 1, hne 2, hne 3]

section

variable {rm : RM} (h : rm.wf = true)
include h

theorem decode_aluRm8Imm8 (reg : RegNum) (op82 : Bool) (imm : Byte) (rest : List Byte) :
    decode (Opcode.byte (.grp1Imm8 op82) :: (rmBytes reg rm ++ [imm]) ++ rest) =
      .ok (.aluRm8Imm8 (AluOp.ofRegNum reg) op82 rm imm, rest) := by
  simp [decodeBody, takeRegRM_rmBytes h]

theorem decode_aluRm16Imm16 (reg : RegNum) (imm : Word) (rest : List Byte) :
    decode (Opcode.byte .grp1Imm16 :: (rmBytes reg rm ++ wordBytes imm) ++ rest) =
      .ok (.aluRm16Imm16 (AluOp.ofRegNum reg) rm imm, rest) := by
  simp [decodeBody, takeRegRM_rmBytes h]

theorem decode_aluRm16Simm8 (reg : RegNum) (imm : Byte) (rest : List Byte) :
    decode (Opcode.byte .grp1Simm8 :: (rmBytes reg rm ++ [imm]) ++ rest) =
      .ok (.aluRm16Simm8 (AluOp.ofRegNum reg) rm imm, rest) := by
  simp [decodeBody, takeRegRM_rmBytes h]

end

/-! ### Instructions -/

/-- Decoding reads back every well-formed instruction, whatever follows it (R90, R98). -/
theorem decode_encode {i : Instr} (h : i.wf = true) (rest : List Byte) : decode (encode i ++ rest) = .ok (i, rest) := by
  cases i with
  -- one or two words
  | movR16Imm16 r imm | movAccMoffs w addr | movMoffsAcc w addr | addAxImm16 imm | orAxImm16 imm | adcAxImm16 imm
  | sbbAxImm16 imm | andAxImm16 imm | subAxImm16 imm | xorAxImm16 imm | cmpAxImm16 imm | testAxImm16 imm | jmpRel16 rel
  | callRel16 rel | retImm16 imm | retfImm16 imm | jmpPtr off seg | callPtr off seg =>
    simp [encode, decodeBody, Instr.aluAxImm16]
  -- a register and an r/m operand
  | movRmR w reg rm | movRRm w reg rm | xchgRmR w reg rm | addRmR w d reg rm | orRmR w d reg rm | adcRmR w d reg rm
  | sbbRmR w d reg rm | andRmR w d reg rm | subRmR w d reg rm | xorRmR w d reg rm | cmpRmR w d reg rm | testRmR w reg rm
  | esc x reg rm =>
    simp [encode, decodeBody, Instr.aluRmR, takeRegRM_rmBytes (rm := rm) h]
  | lea reg m | les reg m | lds reg m =>
    simp [encode, decodeBody, takeRegMem, takeRegRM_rmBytes (rm := .mem m) h]
  -- group 1
  | addRm8Imm8 op82 rm imm | orRm8Imm8 op82 rm imm | adcRm8Imm8 op82 rm imm | sbbRm8Imm8 op82 rm imm
  | andRm8Imm8 op82 rm imm | subRm8Imm8 op82 rm imm | xorRm8Imm8 op82 rm imm | cmpRm8Imm8 op82 rm imm =>
    exact decode_aluRm8Imm8 (rm := rm) h _ op82 imm rest
  | addRm16Imm16 rm imm | orRm16Imm16 rm imm | adcRm16Imm16 rm imm | sbbRm16Imm16 rm imm | andRm16Imm16 rm imm
  | subRm16Imm16 rm imm | xorRm16Imm16 rm imm | cmpRm16Imm16 rm imm =>
    exact decode_aluRm16Imm16 (rm := rm) h _ imm rest
  | addRm16Simm8 rm imm | orRm16Simm8 rm imm | adcRm16Simm8 rm imm | sbbRm16Simm8 rm imm | andRm16Simm8 rm imm
  | subRm16Simm8 rm imm | xorRm16Simm8 rm imm | cmpRm16Simm8 rm imm =>
    exact decode_aluRm16Simm8 (rm := rm) h _ imm rest
  -- the other groups, and `reg` fields that name a segment register or must be 0
  | movRm16Sreg sr rm | movSregRm16 sr rm | movRm8Imm8 rm imm | movRm16Imm16 rm imm | popRm16 rm =>
    simp [encode, decodeBody, takeModRM_rmBytes, takeRM_dispBytes (rm := rm) h]
  | rolRm w count rm | rorRm w count rm | rclRm w count rm | rcrRm w count rm | shlRm w count rm | shrRm w count rm
  | sarRm w count rm =>
    simp [encode, decodeBody, decodeGrp2, ShiftOp.ofRegNum, Instr.shiftRm, takeModRM_rmBytes, takeRM_dispBytes (rm := rm) h]
  | rolRmImm8 w rm imm | rorRmImm8 w rm imm | rclRmImm8 w rm imm | rcrRmImm8 w rm imm | shlRmImm8 w rm imm
  | shrRmImm8 w rm imm | sarRmImm8 w rm imm =>
    simp [encode, decodeBody, decodeGrp2Imm, ShiftOp.ofRegNum, Instr.shiftRmImm8, takeModRM_rmBytes,
      takeRM_dispBytes (rm := rm) h]
  | testRm8Imm8 rm imm | testRm16Imm16 rm imm | notRm w rm | negRm w rm | mulRm w rm | imulRm w rm | divRm w rm
  | idivRm w rm =>
    simp [encode, decodeBody, decodeGrp3, takeModRM_rmBytes, takeRM_dispBytes (rm := rm) h]
  | incRm w rm | decRm w rm =>
    cases w <;>
      simp [encode, incDecOpcode, decodeBody, decodeGrp4, decodeGrp5, takeModRM_rmBytes, takeRM_dispBytes (rm := rm) h]
  | callRm16 rm | jmpRm16 rm | pushRm16 rm =>
    simp [encode, decodeBody, decodeGrp5, takeModRM_rmBytes, takeRM_dispBytes (rm := rm) h]
  | callM1616 m | jmpM1616 m =>
    simp [encode, decodeBody, decodeGrp5, takeModRM_rmBytes, takeRM_dispBytes (rm := .mem m) h]
  -- where `Instr.wf` restricts a field
  | xchgAxR16 r =>
    simp [encode, decodeBody, of_decide_eq_true h]
  | reserved0F sub =>
    simp [encode, decodeBody, decodeExt_reserved (of_decide_eq_true h)]
  | reserved8C m | reserved8E m =>
    simp [encode, decodeBody, SReg.ofRegNum_eq_none (of_decide_eq_true h)]
  | reserved8F m | reservedC6 m | reservedC7 m =>
    simp [encode, decodeBody, of_decide_eq_true h]
  | reservedFE m =>
    have h2 : 2 ≤ m.reg.val := of_decide_eq_true h
    have h0 : m.reg ≠ 0 := by omega
    have h1 : m.reg ≠ 1 := by omega
    simp [encode, decodeBody, decodeGrp4, h0, h1]
  -- reserved members of groups by their fixed fields
  | reserved8D reg rm | reservedC4 reg rm | reservedC5 reg rm =>
    simp [encode, decodeBody, takeRegMem, takeRegRM, takeRM]
  | reservedC0C1 w mod rm | reservedD0toD3 w count mod rm | reservedF6F7 w mod rm | reservedFF7 mod rm =>
    simp [encode, decodeBody, decodeGrp2Imm, decodeGrp2, decodeGrp3, decodeGrp5, ShiftOp.ofRegNum]
  | reservedFF3 rm | reservedFF5 rm =>
    simp [encode, decodeBody, decodeGrp5, takeRM]
  -- no operand, or one byte
  | _ => exact decode_byte_cons _ _

end Sys2Proof
end

section
/-! PROOFS. Running what is stored at `lin(CS, IP)` (60_exceptions R419), and the launch state (10_state R38, 70_reset_and_hazards
R440). -/

namespace Sys2Proof

theorem MemOperand.dispLen_le (m : MemOperand) : m.dispLen ≤ 2 := by cases m <;> simp [MemOperand.dispLen]

theorem length_rmBytes_le (reg : RegNum) (rm : RM) : (rmBytes reg rm).length ≤ 3 := by
  have h : rm.dispLen ≤ 2 := by
    cases rm with
    | reg r => exact Nat.zero_le 2
    | mem m => exact m.dispLen_le
  rw [Laws.length_rmBytes]
  omega

/-- No instruction is longer than six bytes (30_encoding R90). -/
theorem length_encode_le (i : Instr) : (encode i).length ≤ 6 := by
  cases i <;> simp [encode, -Laws.length_rmBytes] <;> grind [length_rmBytes_le]

namespace Machine

/-- The fetched bytes, by their distance from `lin(CS, IP)`. -/
theorem State.fetchBytes_eq_map (s : State) :
    s.fetchBytes = (List.range 6).map fun k => s.readByte (s.fetchAddr + BitVec.ofNat 20 k) := by
  simp [State.fetchBytes, List.range_succ]

/-- A list that agrees with the first `n` values of `f` is the first part of them. -/
theorem map_range_eq_append_drop {α : Type} {f : Nat → α} {l : List α} {n : Nat} (hl : l.length ≤ n)
    (h : ∀ k b, l[k]? = some b → f k = b) : (List.range n).map f = l ++ ((List.range n).map f).drop l.length := by
  conv_lhs => rw [← List.take_append_drop l.length ((List.range n).map f)]
  refine congrArg (· ++ _) (List.ext_getElem (by simpa using hl) fun k hk hk' => ?_)
  simp [h k _ (List.getElem?_eq_getElem hk')]

/-- A step of a running machine is the instruction whose bytes stand at `lin(CS, IP)`, between the start and the end of the
cycle. -/
theorem step_of_encode {s : State} {i : Instr} (hi : i.wf = true) (hr : s.runState = .running)
    (h0 : ¬(s.reg .cs = 0 ∧ s.IP = 0))
    (hb : ∀ k b, (encode i)[k]? = some b → s.readByte (s.fetchAddr + BitVec.ofNat 20 k) = b) :
    step s = andThen (exec i s.startCycle) State.endOfCycle := by
  have hd : decode s.fetchBytes = .ok (i, s.fetchBytes.drop (encode i).length) := by
    rw [State.fetchBytes_eq_map]
    conv_lhs => rw [map_range_eq_append_drop (length_encode_le i) hb]
    exact decode_encode hi _
  simp only [step, hr, if_neg h0, hd]

/-! ### The boot glue -/

/-- Bytes stored to ordinary memory change `mem` only. -/
theorem State.putBytes_plain {s : State} {a : Addr} {bs : List Byte} (hp : ∀ x ∈ bytesFrom a bs.length, cellAt x = .plain) :
    ∃ m, s.putBytes a bs = { s with mem := m } := by
  induction bs generalizing s a with
  | nil => exact ⟨s.mem, rfl⟩
  | cons b bs ih =>
    rw [List.length_cons, bytesFrom_succ] at hp
    rw [State.putBytes, State.putByte_plain (hp a (by simp))]
    exact ih fun x hx => hp x (by simp [hx])

/-- Placing the image changes `mem` only. -/
theorem State.bootLoad_eq (s : State) (image : List Byte) : ∃ m, s.bootLoad image = { s.bootContext with mem := m } :=
  State.putBytes_plain fun _ hx => cellAt_bootWindow (List.length_take_le _ _) hx

/-- What R38 gives of the cycle's own context: both counters 0, no trap, no tick, running. -/
def State.cycleCleared (s : State) : State :=
  { s with segOvrCnt := 0, repCnt := 0, trapShadow := false, tickPending := false, tickCounter := 0, runState := .running }

/-- What the boot glue sets besides the image: `CS`, `AX`, `DL`, `TF`, `IP` and the context of the cycle (R38). -/
theorem frame_bootContext (s : State) :
    Frame s.cycleCleared s.bootContext (Reg.cs.bytes ++ Reg.ax.bytes ++ [regAddr .byte 2]) [.tf] := by
  let u := ((s.cycleCleared.setReg .cs 0xF000).setReg .ax 0).writeReg .byte 2 0x80
  have hf : Frame u s.bootContext [] [.tf] := frame_setFlags (s := u) fun x hx => by
    cases x with
    | tf => simp at hx
    | _ => rfl
  have h := (((frame_setReg_bytes s.cycleCleared .cs 0xF000).trans (frame_setReg_bytes _ .ax 0)).trans
    (frame_writeReg _ .byte 2 0x80)).trans hf
  simpa [bytesAt] using h

/-- The registers, `IP` and `TF` at launch are those of the boot glue, whatever the image: it lies outside the register page. -/
theorem State.bootLoad_values (s : State) (image : List Byte) :
    (s.bootLoad image).reg .cs = 0xF000 ∧ (s.bootLoad image).IP = 0x0100 ∧ (s.bootLoad image).reg8 2 = 0x80 ∧
      (s.bootLoad image).reg .ax = 0 ∧ (s.bootLoad image).flags.TF = false := by
  obtain ⟨m, h⟩ := s.bootLoad_eq image
  rw [h]
  exact ⟨rfl, rfl, byteOf_withByte false 0x80 (s.reg .dx), rfl, rfl⟩

theorem bootWindow_eq (image : List Byte) : bootWindow image = bytesFrom bootAddr (image.take bootImageMax).length := by
  rw [bootWindow, bootAddr_eq, List.length_take, bootImageMax, Nat.min_comm]

/-- The boot glue changes the image window, what R38 gives, and nothing else. -/
theorem frame_bootLoad {s : State} (hm : s.mem.wf memSize = true) (image : List Byte) :
    Frame s.cycleCleared (s.bootLoad image) (bootWindow image ++ Reg.cs.bytes ++ Reg.ax.bytes ++ [regAddr .byte 2]) [.tf] := by
  rw [bootWindow_eq]
  refine ((frame_bootContext s).trans (frame_putBytes (s := s.bootContext) hm)).mono ?_ (by simp)
  intro a ha
  simp only [List.mem_append] at ha ⊢
  tauto

/-- The first cycle runs the instruction at the start of the image. -/
theorem step_launch {i : Instr} (hi : i.wf = true) (rest : List Byte) :
    step (State.launch (encode i ++ rest)) =
      andThen (exec i (State.launch (encode i ++ rest)).startCycle) State.endOfCycle := by
  obtain ⟨hcs, hip, -⟩ := State.reset.bootLoad_values (encode i ++ rest)
  have hrun : (State.launch (encode i ++ rest)).runState = .running := by
    obtain ⟨m, h⟩ := State.reset.bootLoad_eq (encode i ++ rest)
    rw [State.launch, h]
    rfl
  refine step_of_encode hi hrun (fun h => absurd (hcs.symm.trans h.1) (by decide)) fun k b hb => ?_
  obtain ⟨hk, -⟩ := List.getElem?_eq_some_iff.1 hb
  have hmax : k < bootImageMax := by
    have := length_encode_le i
    unfold bootImageMax
    omega
  rw [State.fetchAddr, State.launch, hcs, hip]
  exact State.readByte_bootLoad rfl hmax (by rw [List.getElem?_append_left hk, hb])

end Machine

end Sys2Proof

open Sys2Proof Sys2Proof.Machine

/-- Settles O4: the values of `State.reset` compute; over any base state the image lands in ordinary memory, so that it
changes none of the registers that the boot glue set; and the first fetch reads the image, which decodes to the instruction encoded
there. -/
theorem resetState : Obligations.ResetState := by
  unfold Obligations.ResetState
  refine ⟨rfl, rfl, rfl, rfl, rfl, rfl, rfl, rfl, rfl, rfl, rfl, rfl, rfl, rfl, State.launch_nil, ?_,
    fun i rest hi => step_launch hi rest⟩
  rintro s t image hm rfl
  obtain ⟨hcs, hip, hdl, hax, htf⟩ := s.bootLoad_values image
  exact ⟨hcs, hip, hdl, hax, htf, fun k b hk hb => bootAddr_eq ▸ State.readByte_bootLoad hm hk hb, frame_bootLoad hm image,
    State.putBytes_mem_wf hm⟩

end

section
/-! PROOFS. The invariant (10_state R31, R36): it holds at reset, and every step keeps it (60_exceptions R402, R419). -/

namespace Sys2Proof.Machine

variable {s t : State} {i : Instr}

/-- The invariant speaks of neither registers, flags, `IP` nor draws; of memory it asks the canonical form and that nothing hides
behind the register page. -/
theorem State.Inv.withMem (h : s.Inv) (g : Regs) (f : Flags) (ip : Word) (d : Nat) {m : Memory} (hm : m.wf memSize = true)
    (hp : ∀ c ∈ m, cellAt (BitVec.ofNat 20 c.1) = .plain) :
    State.Inv { s with regs := g, flags := f, IP := ip, mem := m, draws := d } :=
  { h with memWf := hm, noShadow := hp }

/-- Where memory stays as it is. -/
theorem State.Inv.withRegs (h : s.Inv) (g : Regs) (f : Flags) (ip : Word) (d : Nat) :
    State.Inv { s with regs := g, flags := f, IP := ip, draws := d } :=
  h.withMem g f ip d h.memWf h.noShadow

theorem State.Inv.putByte (h : s.Inv) (a : Addr) (v : Byte) : (s.putByte a v).Inv := by
  unfold State.putByte
  split
  · exact h.withRegs _ _ _ _
  · exact h
  · exact h.withRegs _ _ _ _
  · exact h.withRegs _ _ _ _
  · next hc =>
    refine h.withMem s.regs s.flags s.IP s.draws (Memory.wf_set h.memWf a.isLt) fun c hm => ?_
    rcases Memory.mem_set hm with rfl | hm
    · rw [BitVec.ofNat_toNat, BitVec.setWidth_eq]
      exact hc
    · exact h.noShadow c hm

theorem kept_inv : Kept fun s t => s.Inv → t.Inv where
  refl _ h := h
  trans h k hs := k (h hs)
  setReg s r v h := h.withRegs (s.regs.set r v) s.flags s.IP s.draws
  setFlags s f h := h.withRegs s.regs f s.IP s.draws
  putByte _ a v _ h := h.putByte a v
  setIP s v h := h.withRegs s.regs s.flags v s.draws
  nextDraw s h := h.withRegs s.regs s.flags s.IP (s.draws + 1)

theorem keptPorts_inv : KeptPorts fun s t => s.Inv → t.Inv where
  setPort _ _ _ h :=
    { h with
      portsWf := State.setPort_ports_wf h.portsWf
      portsPlain := fun c hc => (State.mem_setPort_ports hc).elim (h.portsPlain c) id
      specialPorts_length := State.setPort_specialPorts_length.trans h.specialPorts_length }
  deviceCalled _ _ _ _ h :=
    { h with
      memWf := (State.deviceMem_spec h.memWf).1
      noShadow := fun c hc => (State.mem_deviceMem h.memWf hc).elim (h.noShadow c) id }

theorem State.Inv.callHook (h : s.Inv) (c : HostCall) : (s.callHook c).Inv := { h with }

/-! ### The counters of overrides and repeats (44_string_prefix R260 to R262) -/

theorem extendCount_le {n : Nat} (h : n ≤ 1) : extendCount n ≤ 2 := by
  unfold extendCount
  split <;> omega

/-- An override or repeat byte keeps the counters in 0..2, since the start of its cycle has lowered both to at most 1. -/
theorem ends_inv_setsCounter (hi : i.SetsCounter) (hseg : s.segOvrCnt ≤ 1) (hrep : s.repCnt ≤ 1) :
    Ends (fun s t => s.Inv → t.Inv) s (exec i s) := by
  intro t ht h
  rcases hi with ⟨sr, rfl⟩ | ⟨mode, rfl⟩
  · rw [exec_segOverride_eq_next ht]
    exact { h with segOvrCnt_le := Nat.le_refl 2, repCnt_le := extendCount_le hrep }
  · rw [exec_rep_eq_next ht]
    exact { h with segOvrCnt_le := extendCount_le hseg, repCnt_le := Nat.le_refl 2 }

/-! ### The parts of a cycle -/

theorem State.Inv.startCycle (h : s.Inv) : s.startCycle.Inv :=
  { h with
    segOvrCnt_le := (Nat.sub_le _ _).trans h.segOvrCnt_le
    repCnt_le := (Nat.sub_le _ _).trans h.repCnt_le }

theorem State.Inv.countCycle (h : s.Inv) : s.countCycle.Inv :=
  { h with tickCounter_lt := Nat.mod_lt _ h.tickPeriod_pos }

/-- The instruction of a cycle keeps the invariant. -/
theorem ends_inv_exec (h : s.Inv) : Ends (fun s t => s.Inv → t.Inv) s.startCycle (exec i s.startCycle) :=
  ends_exec kept_inv i (fun hi => ends_inv_setsCounter hi (Nat.sub_le_of_le_add h.segOvrCnt_le) (Nat.sub_le_of_le_add h.repCnt_le))
    (fun _ => keptPorts_inv) fun _ _ c h => h.callHook c

theorem ends_inv_endOfCycle (s : State) : Ends (fun s t => s.Inv → t.Inv) s s.endOfCycle :=
  ends_endOfCycle kept_inv (fun _ h => h.countCycle) (fun _ _ h => { h with }) (fun _ h => { h with }) s

/-- What a step that answers a next state is: of a running machine, the halt at `CS = 0, IP = 0`, or the instruction fetched, between
the start and the end of its cycle. -/
theorem step_eq_next (h : step s = .next t) :
    s.runState = .running ∧
      ((s.reg .cs = 0 ∧ s.IP = 0) ∧ t = { s with runState := .halted } ∨
        ¬(s.reg .cs = 0 ∧ s.IP = 0) ∧
          ∃ i rest, decode s.fetchBytes = .ok (i, rest) ∧ andThen (exec i s.startCycle) State.endOfCycle = .next t) := by
  unfold step at h
  split at h
  · exact nomatch h
  · exact nomatch h
  · next hr =>
    refine ⟨hr, ?_⟩
    split at h
    · next h0 => exact .inl ⟨h0, (Host.Outcome.next.inj h).symm⟩
    · next h0 =>
      split at h
      · next i rest hd => exact .inr ⟨h0, i, rest, hd, h⟩
      · exact nomatch h

end Sys2Proof.Machine

open Sys2Proof Sys2Proof.Machine

/-- Settles O5: every field of the launch state computes. -/
theorem resetInvariant : Obligations.ResetInvariant where
  memWf := rfl
  portsWf := rfl
  noShadow := by simp [State.reset]
  portsPlain := by simp [State.reset]
  specialPorts_length := rfl
  segOvrCnt_le := Nat.zero_le 2
  repCnt_le := Nat.zero_le 2
  tickPeriod_pos := show 0 < 20000 by decide
  tickCounter_lt := show 0 < 20000 by decide
  notRunaway := RunState.noConfusion

/-- Settles O6: the halt changes `runState` only; in any other cycle the start, the instruction and the end each keep the
invariant. -/
theorem stepKeepsInvariant : Obligations.StepKeepsInvariant := by
  unfold Obligations.StepKeepsInvariant
  intro s t h hst
  obtain ⟨-, ⟨-, rfl⟩ | ⟨-, i, rest, -, hi⟩⟩ := step_eq_next hst
  · exact { h with notRunaway := RunState.noConfusion }
  · exact ends_andThen kept_inv (ends_inv_exec h) ends_inv_endOfCycle t hi h.startCycle

end

section
/-! PROOFS. Which instructions reach the override and repeat context, `Ports` and the host (10_state R30, R31, 48_io_flags_misc
R364): a part of the state that an instruction's updates do not touch is as before. -/

namespace Sys2Proof.Machine

variable {α : Type} {f : State → α} {s : State} {i : Instr}

/-- An override or repeat byte keeps what depends on neither that context nor `IP`. -/
theorem ends_part_setsCounter (hi : i.SetsCounter)
    (hf : ∀ (s : State) (a : Nat) (sr : SReg) (b : Nat) (mode : RepMode) (ip : Word),
      f { s with segOvrCnt := a, segOvrReg := sr, repCnt := b, repMode := mode, IP := ip } = f s) :
    Ends (fun s t => f t = f s) s (exec i s) := by
  intro t ht
  rcases hi with ⟨sr, rfl⟩ | ⟨mode, rfl⟩
  · rw [exec_segOverride_eq_next ht]
    exact hf s 2 sr _ s.repMode _
  · rw [exec_rep_eq_next ht]
    exact hf s _ s.segOvrReg 2 mode _

/-- `SegOvrCnt`, `SegOvrReg`, `RepCnt`, `RepMode` (10_state R31). -/
def State.overrideContext (s : State) : Nat × SReg × Nat × RepMode := (s.segOvrCnt, s.segOvrReg, s.repCnt, s.repMode)

/-- `Ports` and the state of `PortDevice` (10_state R30, 60_exceptions R413). -/
def State.portContext (s : State) : Memory × List Byte × Nat := (s.ports, s.specialPorts, s.portDevice)

/-- The trap and tick context, the run state and the parameters (10_state R31, R33). -/
def State.cycleContext (s : State) : Bool × Bool × Nat × RunState × Params :=
  (s.trapShadow, s.tickPending, s.tickCounter, s.runState, s.params)

theorem ends_overrideContext (hi : ¬i.SetsCounter) :
    Ends (fun s t => t.overrideContext = s.overrideContext) s (exec i s) :=
  ends_exec (kept_part _ fun _ _ _ _ _ _ => rfl) i (fun h => absurd h hi)
    (fun _ => keptPorts_part _ fun _ _ _ _ _ _ => rfl) fun _ _ _ => rfl

theorem ends_portContext (hi : ¬i.ReachesPorts) : Ends (fun s t => t.portContext = s.portContext) s (exec i s) :=
  ends_exec (kept_part _ fun _ _ _ _ _ _ => rfl) i (fun h => ends_part_setsCounter h fun _ _ _ _ _ _ => rfl)
    (fun h => absurd h hi) fun _ _ _ => rfl

theorem ends_hostCalls (hi : ¬i.CallsHost) : Ends (fun s t => t.hostCalls = s.hostCalls) s (exec i s) :=
  ends_exec (kept_part _ fun _ _ _ _ _ _ => rfl) i (fun h => ends_part_setsCounter h fun _ _ _ _ _ _ => rfl)
    (fun _ => keptPorts_part _ fun _ _ _ _ _ _ => rfl) fun h => absurd h hi

theorem ends_cycleContext : Ends (fun s t => t.cycleContext = s.cycleContext) s (exec i s) :=
  ends_exec (kept_part _ fun _ _ _ _ _ _ => rfl) i (fun h => ends_part_setsCounter h fun _ _ _ _ _ _ => rfl)
    (fun _ => keptPorts_part _ fun _ _ _ _ _ _ => rfl) fun _ _ _ => rfl

end Sys2Proof.Machine

open Sys2Proof Sys2Proof.Machine

/-- Settles O11: each of the four parts of the state is kept over every update that the remaining instructions make. -/
theorem onlyTheseReach : Obligations.OnlyTheseReach := by
  unfold Obligations.OnlyTheseReach
  intro i s t h
  refine ⟨fun hi => ?_, fun hi => ?_, fun hi => ends_hostCalls hi t h, ?_⟩
  · simpa [State.overrideContext] using ends_overrideContext hi t h
  · simpa [State.portContext] using ends_portContext hi t h
  · simpa [State.cycleContext] using ends_cycleContext t h

end

section
/-! PROOFS. The register page as bytes of memory (10_state R22, R25, R36, 20_memory R68): what stands at each linear address, with the
page at 0xF0000, what a read there gives and what a store there does. -/

namespace Sys2Proof.Machine

variable {s : State} {i : RegNum} {o : Nat} {v : Byte}

/-! ### What stands at a linear address -/

theorem toNat_ofNat_addr (ho : o < 2 ^ 20) : (BitVec.ofNat 20 o).toNat = o :=
  (BitVec.toNat_ofNat o 20).trans (Nat.mod_eq_of_lt ho)

/-- A linear address below the page or past its last assigned offset is ordinary memory. -/
theorem cellAt_ofNat_outside (ho : o < 2 ^ 20) (h : o < 0xF0000 ∨ 0xF0032 ≤ o) : cellAt (BitVec.ofNat 20 o) = .plain := by
  refine if_neg ?_
  have hb : (Config.regsBase).toNat = 0xF0000 := rfl
  rw [BitVec.toNat_sub, toNat_ofNat_addr ho, hb]
  omega

theorem pageLayout_unassigned : ∀ k < 50, 28 ≤ k ∧ k < 40 → pageLayout.getD k .plain = .plain := by decide

/-- So are the unassigned offsets 28 to 39. -/
theorem cellAt_ofNat_plain (ho : o < 2 ^ 20) (h : o < 0xF0000 ∨ 0xF001C ≤ o ∧ o < 0xF0028 ∨ 0xF0032 ≤ o) :
    cellAt (BitVec.ofNat 20 o) = .plain := by
  by_cases hp : 0xF001C ≤ o ∧ o < 0xF0028
  · obtain ⟨k, rfl⟩ := Nat.exists_eq_add_of_le (show 0xF0000 ≤ o by omega)
    rw [BitVec.ofNat_add]
    exact (cellAt_offset k (by omega)).trans (pageLayout_unassigned k (by omega) (by omega))
  · exact cellAt_ofNat_outside ho (by omega)

theorem pageLayout_zero : ∀ k < 50, pageLayout.getD k .plain = .zero → k = 24 ∨ k = 25 ∨ k = 49 := by decide

/-- Which addresses hold a byte of `ZERO` or the constant cell. -/
theorem cellAt_eq_zero {a : Addr} : cellAt a = .zero ↔ a = 0xF0018 ∨ a = 0xF0019 ∨ a = 0xF0031 := by
  constructor
  · intro e
    obtain ⟨k, hk, rfl, hc⟩ := exists_offset (a := a) (by simp [e])
    rcases pageLayout_zero k hk (hc.symm.trans e) with rfl | rfl | rfl <;> decide
  · rintro (rfl | rfl | rfl) <;> decide

theorem cellAt_ofNat_eq_zero (ho : o < 2 ^ 20) :
    cellAt (BitVec.ofNat 20 o) = .zero ↔ o = 0xF0018 ∨ o = 0xF0019 ∨ o = 0xF0031 := by
  simp only [cellAt_eq_zero, ← BitVec.toNat_inj, toNat_ofNat_addr ho]
  rfl

theorem flagAddr_toNat_bounds (x : Flag) : 0xF0028 ≤ (flagAddr x).toNat ∧ (flagAddr x).toNat ≤ 0xF0030 := by
  cases x <;> decide

theorem pageLayout_flags : ∀ k < 9, pageLayout.getD (40 + k) .plain = .flag (allFlags.getD k .cf) := by decide

/-- The cells at 0xF0028 to 0xF0030 are flags. -/
theorem exists_cellAt_flag (h : 0xF0028 ≤ o ∧ o ≤ 0xF0030) : ∃ x, cellAt (BitVec.ofNat 20 o) = .flag x := by
  obtain ⟨k, rfl⟩ := Nat.exists_eq_add_of_le h.1
  rw [show 0xF0028 + k = 0xF0000 + (40 + k) by omega, BitVec.ofNat_add]
  exact ⟨_, (cellAt_offset (40 + k) (by omega)).trans (pageLayout_flags k (by omega))⟩

/-! ### Reads -/

theorem State.readByte_flagAddr (s : State) (x : Flag) : s.readByte (flagAddr x) = BitVec.ofNat 8 (s.flags.get x).toNat := by
  simp only [State.readByte, cellAt_flagAddr]
  cases s.flags.get x <;> rfl

theorem State.readByte_of_zero {a : Addr} (h : cellAt a = .zero) : s.readByte a = 0 := by
  simp [State.readByte, h]

theorem State.readByte_of_plain {a : Addr} (h : cellAt a = .plain) : s.readByte a = s.mem.get a.toNat := by
  simp [State.readByte, h]

theorem Reg.addr_ofSReg (sr : SReg) : (Reg.ofSReg sr).addr = 0xF0010 + BitVec.ofNat 20 (2 * sr.num) := by
  cases sr <;> decide

/-! ### Stores -/

/-- Every cell but a flag, `ZERO` and the constant cell takes any byte. -/
theorem canStoreByte_ofNat (ho : o < 2 ^ 20) (h : o < 0xF0018 ∨ 0xF001A ≤ o ∧ o < 0xF0028 ∨ 0xF0032 ≤ o) :
    canStoreByte (BitVec.ofNat 20 o) v = true := by
  cases e : cellAt (BitVec.ofNat 20 o) with
  | zero =>
    have hz := (cellAt_ofNat_eq_zero ho).1 e
    omega
  | flag x =>
    have hx := flagAddr_toNat_bounds x
    rw [← cellAt_eq_flag.1 e, toNat_ofNat_addr ho] at hx
    omega
  | _ => simp [canStoreByte, e]

theorem State.writeMem_byte_refused {a : Addr} (h : canStoreByte a v = false) :
    s.writeMem .byte a v = .refused .breaksPageInvariant :=
  if_neg (by simp [canStore, h])

/-- A store that the page allows leaves the byte and changes nothing else. -/
theorem State.exists_writeMem_byte {a : Addr} (hm : s.mem.wf memSize = true) (h : canStoreByte a v = true) :
    ∃ t, s.writeMem .byte a v = .next t ∧ HoldsByte t a v [] ∧ t.IP = s.IP ∧ Frame s t [a] [] :=
  ⟨s.putByte a v, State.writeMem_of_canStore h, holds_putMem (w := .byte) hm h, State.putByte_IP s a v, frame_putByte a v hm⟩

/-! ### The halves of `AX CX DX BX` (10_state R22) -/

/-- `R8[i]` and `R8[i+4]` are the low and the high byte of `R16[i]`, `i < 4`. -/
theorem ofNum8_eq_ofNum : ∀ i : RegNum, i.val < 4 → Reg.ofNum8 i = Reg.ofNum i ∧ isHigh8 i = false ∧
    Reg.ofNum8 (i + 4) = Reg.ofNum i ∧ isHigh8 (i + 4) = true := by
  decide

theorem State.reg8_low (s : State) (h : i.val < 4) : s.reg8 i = byteOf false (s.reg (Reg.ofNum i)) := by
  obtain ⟨hr, hh, -, -⟩ := ofNum8_eq_ofNum i h
  rw [State.reg8, hr, hh]

theorem State.reg8_high (s : State) (h : i.val < 4) : s.reg8 (i + 4) = byteOf true (s.reg (Reg.ofNum i)) := by
  obtain ⟨-, -, hr, hh⟩ := ofNum8_eq_ofNum i h
  rw [State.reg8, hr, hh]

theorem regAddr_byte_inj : ∀ i j : RegNum, regAddr .byte j = regAddr .byte i → j = i := by decide

/-- A write of a half leaves every other 8-bit register: they lie at different bytes of the page. -/
theorem State.reg8_setReg8 (s : State) (i j : RegNum) (b : Byte) :
    (s.setReg8 i b).reg8 j = if j = i then b else s.reg8 j := by
  split
  · next h => exact h ▸ State.readReg_writeReg_same s .byte i b
  · next h =>
    rw [← State.putByte_regAddr, ← State.readByte_regAddr, ← State.readByte_regAddr]
    exact State.readByte_putByte_of_ne b (by simp [cellAt_regAddr_byte]) (mt (regAddr_byte_inj i j) h)

end Sys2Proof.Machine

open Sys2Proof Sys2Proof.Machine

/-- Settles O13: `R8[i]` is a byte of the page, and the bytes of `R8[i]` and `R8[i+4]` are the halves of one word. -/
theorem registerHalves : Obligations.RegisterHalves := by
  unfold Obligations.RegisterHalves
  refine fun s i => ⟨(s.readByte_regAddr i).symm, fun h => ?_, fun b j => s.reg8_setReg8 i j b, fun v h => ?_⟩
  · rw [s.reg8_low h, s.reg8_high h, byteOf_append_byteOf]
  · rw [State.reg8_low _ h, State.reg8_high _ h, State.reg_setReg_same]
    exact ⟨BitVec.setWidth_eq_extractLsb' (x := v) (by decide), rfl⟩

/-- Settles O15: whether a store is refused depends on the cell at the address alone, and one that is not leaves the byte and changes
nothing else. -/
theorem byteStore : Obligations.ByteStore := by
  unfold Obligations.ByteStore
  intro s o v hm ho
  refine ⟨fun h => State.exists_writeMem_byte hm (canStoreByte_ofNat ho h), fun h hv => ?_, fun h hv => ?_, fun h hv => ?_,
    fun h hv => ?_⟩
  · obtain ⟨x, hx⟩ := exists_cellAt_flag h
    have hc : canStoreByte (BitVec.ofNat 20 o) v = true := by simpa [canStoreByte, hx] using hv
    obtain ⟨t, ht, hb, hip, hf⟩ := State.exists_writeMem_byte hm hc
    exact ⟨t, ht, hb (by simp [hx]) (by simp), hip, hf⟩
  · have hz := (cellAt_ofNat_eq_zero ho).2 h
    have hput : s.putByte (BitVec.ofNat 20 o) v = s := by simp [State.putByte, hz]
    exact (State.writeMem_of_canStore (w := .byte) (by simp [canStore, canStoreByte, hz, hv])).trans (congrArg _ hput)
  · obtain ⟨x, hx⟩ := exists_cellAt_flag h
    exact State.writeMem_byte_refused (by simpa [canStoreByte, hx] using hv)
  · exact State.writeMem_byte_refused (by simpa [canStoreByte, (cellAt_ofNat_eq_zero ho).2 h] using hv)

/-- Settles O14: each address named lies over the register, flag or constant cell that the page has there, and the rest over ordinary
memory. -/
theorem registerPageRead : Obligations.RegisterPageRead := by
  unfold Obligations.RegisterPageRead
  intro s
  refine ⟨fun i => s.readLoc_regAddr .word i, fun sr => ?_, ?_, State.readByte_of_zero (cellAt_eq_zero.2 (by simp)),
    s.readByte_flagAddr .cf, s.readByte_flagAddr .pf, s.readByte_flagAddr .af, s.readByte_flagAddr .zf, s.readByte_flagAddr .sf,
    s.readByte_flagAddr .tf, s.readByte_flagAddr .intf, s.readByte_flagAddr .df, s.readByte_flagAddr .of, fun o ho h => ?_⟩
  · rw [← Reg.addr_ofSReg]
    exact s.readMem_regAddr _
  · have h1 : s.readByte 0xF0019 = 0 := State.readByte_of_zero (cellAt_eq_zero.2 (by simp))
    have h0 : s.readByte 0xF0018 = 0 := State.readByte_of_zero (cellAt_eq_zero.2 (by simp))
    exact congrArg₂ (· ++ ·) h1 h0
  · rw [State.readByte_of_plain (cellAt_ofNat_plain ho h), toNat_ofNat_addr ho]

end

section
/-! PROOFS. `SetSZP`, `parity8` (10_state R35, 43_alu R221, R222), and the packed FLAGS image (10_state R27). -/

namespace Sys2Proof.Machine

/-! ### Parity -/

/-- The number of elements with a property is even exactly if the exclusive or over the list is false. -/
theorem countP_even_eq_not_xor {α : Type} (p : α → Bool) (l : List α) :
    (l.countP p % 2 == 0) = !l.foldr (fun a c => p a ^^ c) false := by
  induction l with
  | nil => rfl
  | cons a l ih =>
    have hflip : ∀ n : Nat, ((n + 1) % 2 == 0) = !(n % 2 == 0) := fun n => by
      rcases Nat.mod_two_eq_zero_or_one n with h | h <;> simp [Nat.add_mod, h]
    cases hp : p a with
    | false => simp [hp, ih]
    | true => simp [hp, hflip, ih]

/-- `parity8` as an exclusive or of the eight bits. -/
theorem parity8_eq_not_xor (b : Byte) :
    parity8 b =
      !(b.getLsbD 0 ^^ b.getLsbD 1 ^^ b.getLsbD 2 ^^ b.getLsbD 3 ^^ b.getLsbD 4 ^^ b.getLsbD 5 ^^ b.getLsbD 6 ^^
        b.getLsbD 7) := by
  rw [parity8, countP_even_eq_not_xor]
  simp [List.range_succ]

theorem Flags.setSZP_SF {n : Nat} (f : Flags) (r : BitVec n) : (f.setSZP r).SF = decide (2 ^ (n - 1) ≤ r.toNat) :=
  BitVec.msb_eq_decide r

theorem Flags.setSZP_ZF {n : Nat} (f : Flags) (r : BitVec n) : (f.setSZP r).ZF = decide (r.toNat = 0) := by
  rw [Bool.eq_iff_iff, decide_eq_true_iff, ← BitVec.toNat_zero (w := n), ← BitVec.toNat_eq]
  exact beq_iff_eq

theorem Flags.setSZP_PF {n : Nat} (f : Flags) (r : BitVec n) : (f.setSZP r).PF = parity8 (BitVec.ofNat 8 r.toNat) := by
  rw [BitVec.ofNat_toNat]
  rfl

/-! ### The packed image -/

theorem bitAt_eq_shiftLeft (b : Bool) (i : Nat) : bitAt b i = BitVec.ofNat 16 b.toNat <<< i := by
  cases b
  · exact (BitVec.zero_shiftLeft i).symm
  · rfl

theorem getLsbD_bitAt (b : Bool) {i : Nat} (hi : i < 16) (j : Nat) : (bitAt b i).getLsbD j = (b && decide (i = j)) := by
  cases b
  · exact BitVec.getLsbD_zero
  · exact (BitVec.getLsbD_twoPow i j).trans (by simp [hi])

theorem flagPos_lt (x : Flag) : flagPos x < 16 := by cases x <;> decide

theorem mem_allFlags (x : Flag) : x ∈ allFlags := by cases x <;> decide

/-- The bits of the cells of `l` over an image `v`. -/
theorem getLsbD_foldl_bitAt (f : Flags) (l : List Flag) (v : Word) (j : Nat) :
    (l.foldl (fun w x => w ||| bitAt (f.get x) (flagPos x)) v).getLsbD j =
      (v.getLsbD j || l.any fun x => f.get x && decide (flagPos x = j)) := by
  induction l generalizing v with
  | nil => simp
  | cons x l ih => rw [List.foldl_cons, ih, BitVec.getLsbD_or, getLsbD_bitAt _ (flagPos_lt x), List.any_cons, Bool.or_assoc]

/-- A bit of the packed image that is no flag's. -/
theorem Flags.getLsbD_pack_other (f : Flags) {j : Nat} (h : j ∉ allFlags.map flagPos) :
    f.pack.getLsbD j = (0xF002 : Word).getLsbD j := by
  have hn : (allFlags.any fun x => f.get x && decide (flagPos x = j)) = false := List.any_eq_false.2 fun x hx => by
    have : flagPos x ≠ j := fun e => h (List.mem_map.2 ⟨x, hx, e⟩)
    simp [this]
  rw [Flags.pack, getLsbD_foldl_bitAt, hn, Bool.or_false]

theorem flagPos_inj {x y : Flag} (h : flagPos x = flagPos y) : x = y := by
  have key : ∀ x ∈ allFlags, ∀ y ∈ allFlags, flagPos x = flagPos y → x = y := by decide
  exact key x (mem_allFlags x) y (mem_allFlags y) h

/-- The bit of a flag in the packed image is its cell. -/
theorem Flags.getLsbD_pack_flagPos (f : Flags) (x : Flag) : f.pack.getLsbD (flagPos x) = f.get x := by
  have h0 : (0xF002 : Word).getLsbD (flagPos x) = false := by cases x <;> decide
  rw [Flags.pack, getLsbD_foldl_bitAt, h0, Bool.false_or, Bool.eq_iff_iff, List.any_eq_true]
  constructor
  · rintro ⟨y, -, hy⟩
    obtain ⟨hg, he⟩ := Bool.and_eq_true_iff.1 hy
    exact flagPos_inj (of_decide_eq_true he) ▸ hg
  · exact fun h => ⟨x, mem_allFlags x, by simp [h]⟩

theorem Flags.get_unpack (v : Word) (x : Flag) : (Flags.unpack v).get x = v.getLsbD (flagPos x) := by cases x <;> rfl

@[simp] theorem Flags.unpack_pack (f : Flags) : Flags.unpack f.pack = f :=
  Flags.ext_get fun x => (Flags.get_unpack _ x).trans (f.getLsbD_pack_flagPos x)

/-- `PackFlags` with each cell at its position, written out (R27). -/
theorem Flags.pack_eq (f : Flags) :
    f.pack = 0xF002 ||| (BitVec.ofNat 16 f.CF.toNat <<< 0) ||| (BitVec.ofNat 16 f.PF.toNat <<< 2) |||
      (BitVec.ofNat 16 f.AF.toNat <<< 4) ||| (BitVec.ofNat 16 f.ZF.toNat <<< 6) ||| (BitVec.ofNat 16 f.SF.toNat <<< 7) |||
      (BitVec.ofNat 16 f.TF.toNat <<< 8) ||| (BitVec.ofNat 16 f.IF.toNat <<< 9) ||| (BitVec.ofNat 16 f.DF.toNat <<< 10) |||
      (BitVec.ofNat 16 f.OF.toNat <<< 11) := by
  simp only [Flags.pack, allFlags, List.foldl, bitAt_eq_shiftLeft]
  rfl

end Sys2Proof.Machine

open Sys2Proof Sys2Proof.Machine

/-- Settles O45: the parity of a count of bits is their exclusive or; both policies of R221 and R222 begin with `SetSZP`. -/
theorem signZeroParity : Obligations.SignZeroParity := by
  unfold Obligations.SignZeroParity
  refine ⟨parity8_eq_not_xor, by decide, fun f w op d e r => ⟨⟨f.setSZP_SF r, f.setSZP_ZF r, f.setSZP_PF r⟩, ?_⟩⟩
  cases op <;> exact ⟨rfl, rfl, rfl⟩

/-- Settles O17: the packed image has the bit of a flag at its position and the bits of `0xF002` at every other. -/
theorem packedFlags : Obligations.PackedFlags := by
  unfold Obligations.PackedFlags
  have fixed (f : Flags) (j : Nat) (h : j ∉ allFlags.map flagPos) : f.pack.getLsbD j = (0xF002 : Word).getLsbD j :=
    f.getLsbD_pack_other h
  exact ⟨Flags.pack_eq, fun _ => rfl, fun f => ⟨fixed f 15 (by decide), fixed f 14 (by decide), fixed f 13 (by decide),
    fixed f 12 (by decide), fixed f 1 (by decide), fixed f 5 (by decide), fixed f 3 (by decide)⟩, Flags.unpack_pack⟩

end

section
/-! PROOFS. Words of memory as pairs of bytes (20_memory R61 to R63), and the stack (R77). -/

namespace Sys2Proof.Machine

variable {s : State}

theorem byteOf_eq_extractLsb' (high : Bool) (v : Word) : byteOf high v = v.extractLsb' (8 * high.toNat) 8 := by
  cases high
  · exact BitVec.setWidth_eq_extractLsb' (x := v) (by decide)
  · rfl

/-- A store of a word is that of its low byte, then that of its high byte: whether a byte may be stored does not depend on the state
(R63, 10_state R36). -/
theorem State.writeMem_word_eq (s : State) (a : Addr) (v : Word) :
    s.writeMem .word a v =
      andThen (s.writeMem .byte a (byteOf false v)) fun t => t.writeMem .byte (a + 1#20) (byteOf true v) := by
  cases hl : canStoreByte a (byteOf false v) with
  | false => simp [State.writeMem, canStore, hl]
  | true =>
    rw [State.writeMem_of_canStore (w := .byte) hl, andThen_next]
    exact if_congr (by simp [canStore, hl]) rfl rfl

/-- Once `SP` is lowered by 2 and no other register has changed, the top of the stack is the word below `SS:SP` (R77). -/
theorem State.stackAddr_of_regs {t : State} (h : t.regs = s.regs.set .sp (s.reg .sp - 2#16)) : t.stackAddr = s.stackBelow 2 := by
  rw [← State.lowerSP_stackAddr]
  simp only [State.stackAddr, State.reg, h, State.lowerSP, State.setReg_regs]

/-- A pop undoes what a push did to the registers (R77). -/
theorem State.pop16_regs_of_regs {t : State} (h : t.regs = s.regs.set .sp (s.reg .sp - 2#16)) : t.pop16.regs = s.regs := by
  rw [State.pop16_eq, State.setReg_regs, State.reg, h, Regs.get_set_same, Regs.set_set, BitVec.sub_add_cancel]
  exact s.regs.set_get .sp

/-- After a push to ordinary memory the word pushed is on top of the stack, and a pop gives the registers back (R77). -/
theorem State.push16_then_pop16 (hm : s.mem.wf memSize = true) (hp : Plain .word (s.stackBelow 2)) (v : Word) :
    ∃ t, s.push16 v = .next t ∧ t.stackTop = v ∧ t.pop16.regs = s.regs := by
  have hc := canStore_of_plain hp v
  have hregs := s.regs_push_plain hp v (s.reg .sp - 2#16)
  refine ⟨_, State.push16_of_canStore hc, ?_, State.pop16_regs_of_regs hregs⟩
  rw [State.stackTop, State.stackAddr_of_regs hregs]
  exact readMem_of_holds hp (pushes_putMem hm hc).1

end Sys2Proof.Machine

open Sys2Proof Sys2Proof.Machine

/-- Settles O21: a push is a store at the lowered `SP`, which the register page allows or refuses, and a pop is a read and a write of
`SP`. -/
theorem pushAndPop : Obligations.PushAndPop := by
  unfold Obligations.PushAndPop
  intro s v hm
  refine ⟨fun hc => ⟨_, State.push16_of_canStore hc, by simp, pushes_putMem hm hc⟩, State.push16_of_not_canStore, rfl, rfl,
    setsReg_setReg s .sp _, fun hp => State.push16_then_pop16 hm hp v⟩

/-- Settles O16: a word is read and written as the byte at its address and the byte at the next. -/
theorem memoryAccess : Obligations.MemoryAccess := by
  unfold Obligations.MemoryAccess
  refine ⟨fun seg off => BitVec.toNat_ofNat _ _, by decide, fun s a v => ⟨rfl, rfl, ?_⟩⟩
  rw [State.writeMem_word_eq, byteOf_eq_extractLsb', byteOf_eq_extractLsb']
  rfl

end

section
/-! PROOFS. `IN` and `OUT` (48_io_flags_misc R350 to R353) at special and plain ports (20_memory R75, R76). -/

namespace Sys2Proof.Machine

variable {s : State} {i : Instr} {w : Width} {port : Byte} {p q : Word} {len : Nat} {post : State → Prop}

/-- What `PortDevice` may modify it declares, and none of it lies in the register page (60_exceptions R413). -/
theorem State.mem_deviceCells {a : Addr} (h : a ∈ s.deviceCells w p) :
    a ∈ s.params.deviceBytes ∧ 256 ≤ (a - Config.regsBase).toNat := by
  obtain ⟨ha, hc⟩ := List.mem_filter.1 h
  simp only [Bool.and_eq_true, Bool.not_eq_true', inRegisterPage, decide_eq_false_iff_not] at hc
  exact ⟨ha, Nat.le_of_not_lt hc.1⟩

/-! ### `IN` -/

/-- Both forms of `IN` are `PortRead` and `SetIP(next)`. -/
theorem runsTo_in
    (hi : i = .inAccImm8 w port ∧ len = 2 ∧ p = port.setWidth 16 ∨ i = .inAccDx w ∧ len = 1 ∧ p = s.reg .dx)
    (hp : post (s.portRead w p))
    (hc : ∀ (u : State) (v : Word), post u → post { u with IP := v } := by exact fun _ _ h => h) : RunsTo i s len post := by
  have h : exec i s = (s.portRead w p).advance len := by
    rcases hi with ⟨rfl, rfl, rfl⟩ | ⟨rfl, rfl, rfl⟩ <;> rfl
  exact runsTo_advance h (s.portRead_IP w p) hp hc

theorem State.AL_portRead (h : p ∉ Config.specialPorts) : (s.portRead w p).AL = s.portByte p := by
  rw [← State.portByte_deviceCalled (w := w) (p := p) (v := none) h]
  cases w
  · exact State.readReg_writeReg_same _ .byte 0 _
  · exact byteOf_false_append _ _

theorem State.AH_portRead_word (h : p + 1#16 ∉ Config.specialPorts) : (s.portRead .word p).AH = s.portByte (p + 1#16) := by
  rw [← State.portByte_deviceCalled (w := .word) (p := p) (v := none) h]
  exact byteOf_true_append _ _

@[simp] theorem State.portRead_ports (s : State) (w : Width) (p : Word) : (s.portRead w p).ports = s.ports := by cases w <;> rfl

@[simp] theorem State.portRead_specialPorts (s : State) (w : Width) (p : Word) :
    (s.portRead w p).specialPorts = s.specialPorts := by
  cases w <;> rfl

/-! ### `OUT` -/

/-- Both forms of `OUT` are `PortWrite` of the accumulator and `SetIP(next)`. -/
theorem runsTo_out
    (hi : i = .outImm8Acc w port ∧ len = 2 ∧ p = port.setWidth 16 ∨ i = .outDxAcc w ∧ len = 1 ∧ p = s.reg .dx)
    (hp : post (s.portWrite w p (s.readReg w 0)))
    (hc : ∀ (u : State) (v : Word), post u → post { u with IP := v } := by exact fun _ _ h => h) : RunsTo i s len post := by
  have h : exec i s = (s.portWrite w p (s.readReg w 0)).advance len := by
    rcases hi with ⟨rfl, rfl, rfl⟩ | ⟨rfl, rfl, rfl⟩ <;> rfl
  exact runsTo_advance h (s.portWrite_IP w p _) hp hc

/-- A plain port reads after `PortWrite` as after its stores: `PortDevice` does not change it. -/
theorem State.portByte_portWrite {x : BitVec w.bits} (h : q ∉ Config.specialPorts) :
    (s.portWrite w p x).portByte q = (s.putPort w p x).portByte q :=
  State.portByte_deviceCalled h

theorem State.portByte_portWrite_acc_low (hs : s.ports.wf portCount = true) (h : p ∉ Config.specialPorts) :
    (s.portWrite w p (s.readReg w 0)).portByte p = s.AL := by
  rw [State.portByte_portWrite h]
  cases w
  · exact State.portByte_setPort_plain_same hs h
  · have hne : p ≠ p + 1#16 := by bv_omega
    exact (State.portByte_setPort_other (State.setPort_ports_wf hs) hne).trans (State.portByte_setPort_plain_same hs h)

theorem State.portByte_portWrite_acc_high (hs : s.ports.wf portCount = true) (h : p + 1#16 ∉ Config.specialPorts) :
    (s.portWrite .word p (s.readReg .word 0)).portByte (p + 1#16) = s.AH := by
  rw [State.portByte_portWrite h]
  exact State.portByte_setPort_plain_same (State.setPort_ports_wf hs) h

end Sys2Proof.Machine

open Sys2Proof Sys2Proof.Machine

/-- Settles O58: a plain port reads the same before and after `PortDevice` was called, so the plain half of an access is a plain cell;
the rest is the frame of a call of `PortDevice`. -/
theorem specialPorts : Obligations.SpecialPorts := by
  unfold Obligations.SpecialPorts
  refine fun s w port p hm hs => ⟨fun _ => State.mem_deviceCells, fun _ _ hi => runsTo_in hi ?_, fun _ _ hi => runsTo_out hi ?_⟩
  · refine ⟨State.AL_portRead, ?_, s.portRead_ports w p, s.portRead_specialPorts w p, frame_portRead hm⟩
    rintro rfl h
    exact State.AH_portRead_word h
  · refine ⟨State.portByte_portWrite_acc_low hs, ?_, fun q hq hn => ?_, frame_portWrite hm⟩
    · rintro rfl h
      exact State.portByte_portWrite_acc_high hs h
    · exact (State.portByte_portWrite hq).trans (State.portByte_putPort_other hs hn)

end

section
/-! PROOFS. What the decoder answers encodes to the bytes it read (30_encoding R90, R98), and the round trip of the two. -/

namespace Sys2Proof

/-! ### Lengths (R90, R98) -/

/-- The encoder gives as many bytes as `Instr.length` says. -/
theorem length_encode (i : Instr) : (encode i).length = i.length := by
  cases i with
  | movRmR _ reg rm | movRRm _ reg rm | xchgRmR _ reg rm | testRmR _ reg rm | esc _ reg rm | addRmR _ _ reg rm
  | orRmR _ _ reg rm | adcRmR _ _ reg rm | sbbRmR _ _ reg rm | andRmR _ _ reg rm | subRmR _ _ reg rm | xorRmR _ _ reg rm
  | cmpRmR _ _ reg rm => exact Laws.length_rm _ reg rm
  | movRm16Sreg _ rm | movSregRm16 _ rm | pushRm16 rm | popRm16 rm | incRm _ rm | decRm _ rm | notRm _ rm | negRm _ rm
  | mulRm _ rm | imulRm _ rm | divRm _ rm | idivRm _ rm | rolRm _ _ rm | rorRm _ _ rm | rclRm _ _ rm | rcrRm _ _ rm
  | shlRm _ _ rm | shrRm _ _ rm | sarRm _ _ rm | jmpRm16 rm | callRm16 rm => exact Laws.length_rm _ _ rm
  | lea _ m | les _ m | lds _ m | jmpM1616 m | callM1616 m => exact Laws.length_rm _ _ (.mem m)
  | movRm8Imm8 rm imm | testRm8Imm8 rm imm | addRm8Imm8 _ rm imm | orRm8Imm8 _ rm imm | adcRm8Imm8 _ rm imm
  | sbbRm8Imm8 _ rm imm | andRm8Imm8 _ rm imm | subRm8Imm8 _ rm imm | xorRm8Imm8 _ rm imm | cmpRm8Imm8 _ rm imm
  | addRm16Simm8 rm imm | orRm16Simm8 rm imm | adcRm16Simm8 rm imm | sbbRm16Simm8 rm imm | andRm16Simm8 rm imm
  | subRm16Simm8 rm imm | xorRm16Simm8 rm imm | cmpRm16Simm8 rm imm | rolRmImm8 _ rm imm | rorRmImm8 _ rm imm
  | rclRmImm8 _ rm imm | rcrRmImm8 _ rm imm | shlRmImm8 _ rm imm | shrRmImm8 _ rm imm | sarRmImm8 _ rm imm =>
    exact Laws.length_rm_byte _ _ rm imm
  | movRm16Imm16 rm imm | testRm16Imm16 rm imm | addRm16Imm16 rm imm | orRm16Imm16 rm imm | adcRm16Imm16 rm imm
  | sbbRm16Imm16 rm imm | andRm16Imm16 rm imm | subRm16Imm16 rm imm | xorRm16Imm16 rm imm | cmpRm16Imm16 rm imm =>
    exact Laws.length_rm_word _ _ rm imm
  | _ => rfl

theorem encode_ne_nil {i : Instr} (h : i.wf = true) : encode i ≠ [] := fun e => by
  have hd : decode [] = .ok (i, []) := by simpa [e] using decode_encode h []
  exact nomatch hd

/-! ### The encoders of fields, one after the other -/

theorem Opcode.byte_ofByte : ∀ b : Byte, (Opcode.ofByte b).byte = b := by decide

theorem ModRM.byte_ofByte (b : Byte) : (ModRM.ofByte b).byte = b := by
  have := b.isLt
  refine BitVec.eq_of_toNat_eq ?_
  simp only [ModRM.ofByte, ModRM.byte, BitVec.toNat_ofNat, Fin.val_ofNat]
  omega

theorem wordBytes_append (hi lo : Byte) : wordBytes (hi ++ lo) = [lo, hi] := by
  have hl : (hi ++ lo).setWidth 8 = lo := BitVec.setWidth_append_eq_right
  have hh : ((hi ++ lo) >>> 8).setWidth 8 = hi := by
    rw [BitVec.setWidth_ushiftRight_eq_extractLsb]
    exact Machine.byteOf_true_append hi lo
  exact congrArg₂ (fun a b => [a, b]) hl hh

@[simp] theorem AddrForm.num_ofNum (r : RegNum) : (AddrForm.ofNum r).num = r := by
  match r with
  | 0 | 1 | 2 | 3 | 4 | 5 | 6 | 7 => rfl

theorem AddrForm.ofNum_ne_bp {r : RegNum} (h : r ≠ 6) : AddrForm.ofNum r ≠ .bp := fun e =>
  h (by rw [← num_ofNum r, e]; rfl)

/-! ### Reading the parts of an encoding -/

/-- With the bytes `pre` read and `bs` left, `d` is a well-formed instruction whose bytes begin where `pre` does, or the bytes end
too soon, which six of them do not (R90). -/
def Reads (pre bs : List Byte) (d : Decoded) : Prop :=
  (∃ i rest, d = .ok (i, rest) ∧ i.wf = true ∧ encode i ++ rest = pre ++ bs) ∨
    d = .error .truncated ∧ (pre ++ bs).length < 6

variable {pre bs : List Byte}

theorem reads_ok {i : Instr} (hw : i.wf = true) (he : encode i = pre) : Reads pre bs (.ok (i, bs)) :=
  .inl ⟨i, bs, rfl, hw, by rw [he]⟩

theorem Reads.shift {b : Byte} {d : Decoded} (h : Reads (pre ++ [b]) bs d) : Reads pre (b :: bs) d := by
  unfold Reads at h ⊢
  rwa [List.append_assoc] at h

theorem reads_takeByte {k : Byte → List Byte → Decoded} (hp : pre.length ≤ 5)
    (h : ∀ b rest, Reads (pre ++ [b]) rest (k b rest)) : Reads pre bs (takeByte bs k) := by
  cases bs with
  | nil => exact .inr ⟨rfl, by simp; omega⟩
  | cons b rest => exact (h b rest).shift

theorem reads_takeWord {k : Word → List Byte → Decoded} (hp : pre.length ≤ 4)
    (h : ∀ v rest, Reads (pre ++ wordBytes v) rest (k v rest)) : Reads pre bs (takeWord bs k) := by
  refine reads_takeByte (by omega) fun lo rest => reads_takeByte (by simp; omega) fun hi rest => ?_
  simpa [wordBytes_append] using h (hi ++ lo) rest

theorem reads_takeModRM {k : ModRM → List Byte → Decoded} (hp : pre.length ≤ 5)
    (h : ∀ m rest, Reads (pre ++ [m.byte]) rest (k m rest)) : Reads pre bs (takeModRM bs k) :=
  reads_takeByte hp fun b rest => by simpa only [ModRM.byte_ofByte] using h (ModRM.ofByte b) rest

/-- The displacement after a ModRM byte (R94, R95). -/
theorem reads_takeRM {m : ModRM} {k : RM → List Byte → Decoded} (hp : pre.length ≤ 3)
    (h : ∀ rm rest, rm.wf = true → Reads (pre ++ rmBytes m.reg rm) rest (k rm rest)) :
    Reads (pre ++ [m.byte]) bs (takeRM m bs k) := by
  have hl : (pre ++ [m.byte]).length ≤ 4 := by simpa [Nat.lt_succ_iff] using hp
  have hmem (x : MemOperand) (rest : List Byte) (hw : x.wf = true) (hx : ⟨x.mod, m.reg, x.rmField⟩ = m) :
      Reads (pre ++ [m.byte] ++ x.dispBytes) rest (k (.mem x) rest) := by
    rw [List.append_assoc, ← hx]
    exact h (.mem x) rest hw
  obtain ⟨mod, reg, rm⟩ := m
  have hf : (AddrForm.ofNum rm).num = rm := AddrForm.num_ofNum rm
  match mod with
  | 0 =>
    simp only [takeRM]
    split
    · next h6 => exact reads_takeWord hl fun a rest => hmem (.direct a) rest rfl (congrArg _ h6.symm)
    · next h6 =>
      simpa [MemOperand.dispBytes] using
        hmem (.base (AddrForm.ofNum rm)) bs (decide_eq_true (AddrForm.ofNum_ne_bp h6)) (congrArg _ hf)
  | 1 => exact reads_takeByte (hl.trans (Nat.le_succ 4)) fun d rest => hmem (.disp8 _ d) rest rfl (congrArg _ hf)
  | 2 =>
    simp only [takeRM]
    exact reads_takeWord hl fun d rest => hmem (.disp16 _ d) rest rfl (congrArg _ hf)
  | 3 => exact h (.reg rm) bs rfl

theorem reads_takeRegRM {k : RegNum → RM → List Byte → Decoded} (hp : pre.length ≤ 3)
    (h : ∀ reg rm rest, rm.wf = true → Reads (pre ++ rmBytes reg rm) rest (k reg rm rest)) : Reads pre bs (takeRegRM bs k) :=
  reads_takeModRM (by omega) fun m _ => reads_takeRM hp (h m.reg)

theorem reads_takeRegMem {k : RegNum → MemOperand → List Byte → Decoded} {onReg : RegNum → RegNum → Instr}
    (hp : pre.length ≤ 3)
    (hr : ∀ reg r, (onReg reg r).wf = true ∧ encode (onReg reg r) = pre ++ [ModRM.byte ⟨3, reg, r⟩])
    (h : ∀ reg m rest, m.wf = true → Reads (pre ++ rmBytes reg (.mem m)) rest (k reg m rest)) :
    Reads pre bs (takeRegMem bs onReg k) :=
  reads_takeRegRM hp fun reg rm rest hw =>
    match rm with
    | .reg r => reads_ok (hr reg r).1 (hr reg r).2
    | .mem m => h reg m rest hw

/-! ### Groups (R103) -/

section

variable (a : AluOp) (op : ShiftOp) (w : Width) (d : Direction) (count : ShiftCount) (reg : RegNum) (rm : RM) (imm : Byte)
  (imm16 : Word)

@[simp] theorem wf_aluRmR : (Instr.aluRmR a w d reg rm).wf = rm.wf := by cases a <;> rfl
@[simp] theorem wf_aluAlImm8 : (Instr.aluAlImm8 a imm).wf = true := by cases a <;> rfl
@[simp] theorem wf_aluAxImm16 : (Instr.aluAxImm16 a imm16).wf = true := by cases a <;> rfl
@[simp] theorem wf_aluRm8Imm8 (op82 : Bool) : (Instr.aluRm8Imm8 a op82 rm imm).wf = rm.wf := by cases a <;> rfl
@[simp] theorem wf_aluRm16Imm16 : (Instr.aluRm16Imm16 a rm imm16).wf = rm.wf := by cases a <;> rfl
@[simp] theorem wf_aluRm16Simm8 : (Instr.aluRm16Simm8 a rm imm).wf = rm.wf := by cases a <;> rfl
@[simp] theorem wf_shiftRm : (Instr.shiftRm op w count rm).wf = rm.wf := by cases op <;> rfl
@[simp] theorem wf_shiftRmImm8 : (Instr.shiftRmImm8 op w rm imm).wf = rm.wf := by cases op <;> rfl
@[simp] theorem wf_jcc (c : Cond) (rel : Byte) : (Instr.jcc c rel).wf = true := by cases c <;> rfl

theorem encode_aluRmR : encode (.aluRmR a w d reg rm) = Opcode.byte (.aluRmR a w d) :: rmBytes reg rm := by cases a <;> rfl

theorem encode_aluAlImm8 : encode (.aluAlImm8 a imm) = [Opcode.byte (.aluAccImm a .byte), imm] := by cases a <;> rfl

theorem encode_aluAxImm16 : encode (.aluAxImm16 a imm16) = Opcode.byte (.aluAccImm a .word) :: wordBytes imm16 := by
  cases a <;> rfl

theorem encode_jcc (c : Cond) (rel : Byte) : encode (.jcc c rel) = [Opcode.byte (.jcc c), rel] := by cases c <;> rfl

theorem encode_aluRm8Imm8 (op82 : Bool) :
    encode (.aluRm8Imm8 (AluOp.ofRegNum reg) op82 rm imm) = Opcode.byte (.grp1Imm8 op82) :: (rmBytes reg rm ++ [imm]) := by
  match reg with
  | 0 | 1 | 2 | 3 | 4 | 5 | 6 | 7 => rfl

theorem encode_aluRm16Imm16 :
    encode (.aluRm16Imm16 (AluOp.ofRegNum reg) rm imm16) = Opcode.byte .grp1Imm16 :: (rmBytes reg rm ++ wordBytes imm16) := by
  match reg with
  | 0 | 1 | 2 | 3 | 4 | 5 | 6 | 7 => rfl

theorem encode_aluRm16Simm8 :
    encode (.aluRm16Simm8 (AluOp.ofRegNum reg) rm imm) = Opcode.byte .grp1Simm8 :: (rmBytes reg rm ++ [imm]) := by
  match reg with
  | 0 | 1 | 2 | 3 | 4 | 5 | 6 | 7 => rfl

/-- The `reg` field of group 2 is 6 or that of an operation. -/
theorem ShiftOp.ofRegNum_eq_none {reg : RegNum} : ShiftOp.ofRegNum reg = none → reg = 6 := by
  revert reg
  decide

theorem encode_shiftRm {op : ShiftOp} {reg : RegNum} (h : ShiftOp.ofRegNum reg = some op) :
    encode (.shiftRm op w count rm) = Opcode.byte (.grp2 w count) :: rmBytes reg rm := by
  match reg with
  | 0 | 1 | 2 | 3 | 4 | 5 | 7 => cases h; rfl
  | 6 => cases h

theorem encode_shiftRmImm8 {op : ShiftOp} {reg : RegNum} (h : ShiftOp.ofRegNum reg = some op) :
    encode (.shiftRmImm8 op w rm imm) = Opcode.byte (.grp2Imm w) :: (rmBytes reg rm ++ [imm]) := by
  match reg with
  | 0 | 1 | 2 | 3 | 4 | 5 | 7 => cases h; rfl
  | 6 => cases h

theorem SReg.eq_of_ofRegNum {reg : RegNum} {sr : SReg} (h : SReg.ofRegNum reg = some sr) : reg = sr.regNum := by
  match reg with
  | 0 | 1 | 2 | 3 => cases h; rfl
  | 4 | 5 | 6 | 7 => cases h

theorem SReg.four_le_of_ofRegNum {reg : RegNum} : SReg.ofRegNum reg = none → 4 ≤ reg.val := by
  revert reg
  decide

end

/-- An immediate after the opcode and an r/m operand (R91). -/
theorem reads_rm_takeByte {o : Byte} {reg : RegNum} {rm : RM} {k : Byte → List Byte → Decoded}
    (h : ∀ imm rest, Reads ([o] ++ rmBytes reg rm ++ [imm]) rest (k imm rest)) : Reads ([o] ++ rmBytes reg rm) bs (takeByte bs k) :=
  reads_takeByte (Nat.succ_le_succ ((length_rmBytes_le reg rm).trans (Nat.le_succ 3))) h

theorem reads_rm_takeWord {o : Byte} {reg : RegNum} {rm : RM} {k : Word → List Byte → Decoded}
    (h : ∀ imm rest, Reads ([o] ++ rmBytes reg rm ++ wordBytes imm) rest (k imm rest)) :
    Reads ([o] ++ rmBytes reg rm) bs (takeWord bs k) :=
  reads_takeWord (Nat.succ_le_succ (length_rmBytes_le reg rm)) h

theorem reads_decodeGrp2 {w : Width} {count : ShiftCount} {m : ModRM} :
    Reads [Opcode.byte (.grp2 w count), m.byte] bs (decodeGrp2 w count m bs) := by
  unfold decodeGrp2
  split
  · next h => exact reads_ok rfl (by rw [encode, ← ShiftOp.ofRegNum_eq_none h])
  · next op h =>
    exact reads_takeRM (pre := [_]) (by simp) fun rm rest hw => reads_ok (by simpa using hw) (encode_shiftRm w count rm h)

theorem reads_decodeGrp2Imm {w : Width} {m : ModRM} :
    Reads [Opcode.byte (.grp2Imm w), m.byte] bs (decodeGrp2Imm w m bs) := by
  unfold decodeGrp2Imm
  split
  · next h => exact reads_ok rfl (by rw [encode, ← ShiftOp.ofRegNum_eq_none h])
  · next op h =>
    exact reads_takeRM (pre := [_]) (by simp) fun rm rest hw =>
      reads_rm_takeByte fun imm rest =>
        reads_ok (by simpa using hw) (encode_shiftRmImm8 w rm imm h)

theorem reads_decodeGrp3 {w : Width} {m : ModRM} : Reads [Opcode.byte (.grp3 w), m.byte] bs (decodeGrp3 w m bs) := by
  match m with
  | ⟨mod, 0, rm⟩ =>
    simp only [decodeGrp3]
    refine reads_takeRM (pre := [_]) (by simp) fun rm rest hw => ?_
    cases w with
    | byte => exact reads_rm_takeByte fun imm rest => reads_ok hw rfl
    | word => exact reads_rm_takeWord fun imm rest => reads_ok hw rfl
  | ⟨mod, 1, rm⟩ => exact reads_ok rfl rfl
  | ⟨mod, 2, rm⟩ | ⟨mod, 3, rm⟩ | ⟨mod, 4, rm⟩ | ⟨mod, 5, rm⟩ | ⟨mod, 6, rm⟩ | ⟨mod, 7, rm⟩ =>
    simp only [decodeGrp3]
    exact reads_takeRM (pre := [_]) (by simp) fun rm rest hw => reads_ok hw rfl

theorem reads_decodeGrp4 {m : ModRM} : Reads [Opcode.byte .grp4, m.byte] bs (decodeGrp4 m bs) := by
  unfold decodeGrp4
  split
  · next h => exact reads_takeRM (pre := [_]) (by simp) fun rm rest hw => reads_ok hw (by rw [h]; rfl)
  · split
    · next h => exact reads_takeRM (pre := [_]) (by simp) fun rm rest hw => reads_ok hw (by rw [h]; rfl)
    · next h0 h1 => exact reads_ok (decide_eq_true (by omega)) rfl

theorem reads_decodeGrp5 {m : ModRM} : Reads [Opcode.byte .grp5, m.byte] bs (decodeGrp5 m bs) := by
  match m with
  | ⟨mod, 3, rm⟩ | ⟨mod, 5, rm⟩ =>
    simp only [decodeGrp5]
    refine reads_takeRM (pre := [_]) (by simp) fun rm rest hw => ?_
    cases rm with
    | reg r => exact reads_ok rfl rfl
    | mem m => exact reads_ok hw rfl
  | ⟨mod, 7, rm⟩ => exact reads_ok rfl rfl
  | ⟨mod, 0, rm⟩ | ⟨mod, 1, rm⟩ | ⟨mod, 2, rm⟩ | ⟨mod, 4, rm⟩ | ⟨mod, 6, rm⟩ =>
    simp only [decodeGrp5]
    exact reads_takeRM (pre := [_]) (by simp) fun rm rest hw => reads_ok hw rfl

theorem decodeExt_spec (sub : Byte) : (decodeExt sub).wf = true ∧ encode (decodeExt sub) = [Opcode.byte .ext, sub] := by
  by_cases h : 4 ≤ sub.toNat
  · rw [decodeExt_reserved h]
    exact ⟨decide_eq_true h, rfl⟩
  · obtain ⟨n, hn⟩ : ∃ n : Fin 4, sub = BitVec.ofNat 8 n := ⟨⟨sub.toNat, by omega⟩, by simp⟩
    subst hn
    revert n
    decide

/-! ### Instructions -/

/-- The rest of an instruction after its first byte (R91, R97, R102). -/
theorem reads_decodeBody (op : Opcode) : Reads [op.byte] bs (decodeBody op bs) := by
  cases op with
  -- one immediate
  | aluAccImm a w =>
    cases w with
    | byte => exact reads_takeByte (by simp) fun imm rest => reads_ok (by simp) (encode_aluAlImm8 a imm)
    | word =>
      rw [decodeBody]
      exact reads_takeWord (by simp) fun imm rest => reads_ok (by simp) (encode_aluAxImm16 a imm)
  | testAccImm w =>
    cases w with
    | byte => exact reads_takeByte (by simp) fun imm rest => reads_ok rfl rfl
    | word =>
      rw [decodeBody]
      exact reads_takeWord (by simp) fun imm rest => reads_ok rfl rfl
  | jcc c => exact reads_takeByte (by simp) fun rel rest => reads_ok (by simp) (encode_jcc c rel)
  | ext =>
    exact reads_takeByte (by simp) fun sub rest => reads_ok (decodeExt_spec sub).1 (decodeExt_spec sub).2
  | movR8Imm | int | aam | aad | loopne | loope | loop | jcxz | inImm | outImm | jmpRel8 =>
    exact reads_takeByte (by simp) fun imm rest => reads_ok rfl rfl
  | movAccMoffs | movMoffsAcc | movR16Imm | retImm16 | retfImm16 | callRel16 | jmpRel16 =>
    rw [decodeBody]
    exact reads_takeWord (by simp) fun imm rest => reads_ok rfl rfl
  | callPtr | jmpPtr =>
    rw [decodeBody]
    exact reads_takeWord (by simp) fun off rest => reads_takeWord (Nat.le_succ 3) fun seg rest => reads_ok rfl rfl
  -- a register and an r/m operand
  | aluRmR a w d =>
    rw [decodeBody]
    exact reads_takeRegRM (by simp) fun reg rm rest hw => reads_ok (by simpa using hw) (encode_aluRmR a w d reg rm)
  | testRmR | xchgRmR | movRmR | movRRm | esc =>
    rw [decodeBody]
    exact reads_takeRegRM (by simp) fun reg rm rest hw => reads_ok hw rfl
  | lea | les | lds =>
    rw [decodeBody]
    exact reads_takeRegMem (by simp) (fun reg r => ⟨rfl, rfl⟩) fun reg m rest hw => reads_ok hw rfl
  -- groups, and `reg` fields that name a segment register or must be 0
  | grp1Imm8 op82 =>
    rw [decodeBody]
    exact reads_takeRegRM (by simp) fun reg rm rest hw =>
      reads_rm_takeByte fun imm rest =>
        reads_ok (by simpa using hw) (encode_aluRm8Imm8 reg rm imm op82)
  | grp1Imm16 =>
    rw [decodeBody]
    exact reads_takeRegRM (by simp) fun reg rm rest hw =>
      reads_rm_takeWord fun imm rest =>
        reads_ok (by simpa using hw) (encode_aluRm16Imm16 reg rm imm)
  | grp1Simm8 =>
    rw [decodeBody]
    exact reads_takeRegRM (by simp) fun reg rm rest hw =>
      reads_rm_takeByte fun imm rest =>
        reads_ok (by simpa using hw) (encode_aluRm16Simm8 reg rm imm)
  | movRmSreg | movSregRm =>
    rw [decodeBody]
    refine reads_takeModRM (by simp) fun m rest => ?_
    split
    · next h => exact reads_ok (decide_eq_true (SReg.four_le_of_ofRegNum h)) rfl
    · next sr h =>
      exact reads_takeRM (pre := [_]) (by simp) fun rm rest hw => reads_ok hw (by rw [SReg.eq_of_ofRegNum h]; rfl)
  | grp8F =>
    rw [decodeBody]
    refine reads_takeModRM (by simp) fun m rest => ?_
    split
    · next h => exact reads_takeRM (by simp) fun rm rest hw => reads_ok hw (by rw [h]; rfl)
    · next h => exact reads_ok (decide_eq_true h) rfl
  | movRmImm w =>
    cases w with
    | byte =>
      rw [decodeBody]
      refine reads_takeModRM (by simp) fun m rest => ?_
      split
      · next h =>
        exact reads_takeRM (by simp) fun rm rest hw =>
          reads_rm_takeByte fun imm rest => reads_ok hw (by rw [h]; rfl)
      · next h => exact reads_ok (decide_eq_true h) rfl
    | word =>
      rw [decodeBody]
      refine reads_takeModRM (by simp) fun m rest => ?_
      split
      · next h =>
        exact reads_takeRM (by simp) fun rm rest hw =>
          reads_rm_takeWord fun imm rest => reads_ok hw (by rw [h]; rfl)
      · next h => exact reads_ok (decide_eq_true h) rfl
  | grp2 w count => exact reads_takeModRM (by simp) fun m rest => reads_decodeGrp2
  | grp2Imm w => exact reads_takeModRM (by simp) fun m rest => reads_decodeGrp2Imm
  | grp3 w => exact reads_takeModRM (by simp) fun m rest => reads_decodeGrp3
  | grp4 => exact reads_takeModRM (by simp) fun m rest => reads_decodeGrp4
  | grp5 => exact reads_takeModRM (by simp) fun m rest => reads_decodeGrp5
  -- no more bytes
  | xchgAx r =>
    show Reads _ _ (.ok (if r = 0 then .nop else .xchgAxR16 r, bs))
    split
    · next h => exact reads_ok rfl (by rw [h]; rfl)
    · next h => exact reads_ok (decide_eq_true h) rfl
  | _ => exact reads_ok rfl rfl

theorem reads_decode (bs : List Byte) : Reads [] bs (decode bs) :=
  reads_takeByte (Nat.zero_le 5) fun b rest => by
    simpa [Opcode.byte_ofByte] using reads_decodeBody (bs := rest) (Opcode.ofByte b)

/-- What the decoder answers is well-formed, and its bytes are those it read (R90, R98). -/
theorem wf_and_encode_of_decode {i : Instr} {rest : List Byte} (h : decode bs = .ok (i, rest)) :
    i.wf = true ∧ encode i ++ rest = bs := by
  obtain ⟨j, r, hd, hw, he⟩ | ⟨hd, -⟩ := reads_decode bs
  · cases hd.symm.trans h
    exact ⟨hw, he⟩
  · exact nomatch hd.symm.trans h

theorem exists_decode (h : 6 ≤ bs.length) : ∃ i rest, decode bs = .ok (i, rest) := by
  obtain ⟨i, rest, hd, -⟩ | ⟨-, hl⟩ := reads_decode bs
  · exact ⟨i, rest, hd⟩
  · exact absurd hl (Nat.not_lt.2 h)

end Sys2Proof

open Sys2Proof

/-- Settles O1: the decoder reads back each part of an encoding, and so the whole. -/
theorem decodeOfEncode : Obligations.DecodeOfEncode := by
  unfold Obligations.DecodeOfEncode
  exact fun _ rest hw => decode_encode hw rest

/-- Settles O2: the bytes that each part of the decoder reads are those that the encoder writes for it, and none needs a seventh. -/
theorem encodeOfDecode : Obligations.EncodeOfDecode := by
  unfold Obligations.EncodeOfDecode
  refine ⟨fun _ _ _ => wf_and_encode_of_decode, fun bs h => ?_⟩
  obtain ⟨i, rest, hd⟩ := exists_decode h
  obtain ⟨hw, rfl⟩ := wf_and_encode_of_decode hd
  refine ⟨i, rest, hd, ?_, ?_, ?_⟩
  · exact length_encode i ▸ List.length_pos_iff.2 (encode_ne_nil hw)
  · exact length_encode i ▸ length_encode_le i
  · rw [List.length_append, length_encode]

end

section
/-! PROOFS. Operand addresses (30_encoding R94 to R96). -/

open Sys2Proof Sys2Proof.Machine

/-- Settles O18: the table is `AddrForm.value` and `AddrForm.segment`, form by form; a displacement and the override add to it. -/
theorem operandAddresses : Obligations.OperandAddresses := by
  unfold Obligations.OperandAddresses
  intro s f seg b h
  obtain ⟨rfl, rfl⟩ : f.segment = seg ∧ f.value s = b := by
    simp only [List.mem_cons, List.not_mem_nil, or_false, Prod.mk.injEq] at h
    obtain ⟨rfl, rfl, rfl⟩ | ⟨rfl, rfl, rfl⟩ | ⟨rfl, rfl, rfl⟩ | ⟨rfl, rfl, rfl⟩ | ⟨rfl, rfl, rfl⟩ | ⟨rfl, rfl, rfl⟩ |
        ⟨rfl, rfl, rfl⟩ | ⟨rfl, rfl, rfl⟩ := h <;> exact ⟨rfl, rfl⟩
  refine ⟨fun _ _ => ⟨rfl, rfl, rfl, rfl⟩, fun d8 d16 => ?_, fun m => ⟨fun hc => ?_, fun hc => ?_⟩, fun _ => rfl⟩
  · simp [MemOperand.segment]
  · simp [MemOperand.addr, State.dataAddr, State.segment, hc]
  · simp [MemOperand.addr, State.dataAddr, State.segment, hc]

end

section
/-! PROOFS. The reserved encodings (30_encoding R104): which instructions they are, what two bytes begin them, and that no other
instruction is refused but for a store (10_state R36). -/

namespace Sys2Proof

/-- The twenty reserved instructions (R104). -/
def Instr.reserved : Instr → Bool
  | .reserved0F _ | .reserved60to6F _ | .reserved8C _ | .reserved8D _ _ | .reserved8E _ | .reserved8F _ | .reservedC0C1 _ _ _
  | .reservedC4 _ _ | .reservedC5 _ _ | .reservedC6 _ | .reservedC7 _ | .reservedC8C9 _ | .reservedD0toD3 _ _ _ _ | .reservedD6
  | .reservedF1 | .reservedF6F7 _ _ _ | .reservedFE _ | .reservedFF3 _ | .reservedFF5 _ | .reservedFF7 _ _ => true
  | _ => false

/-! ### The first two bytes -/

theorem ModRM.toNat_byte_div (m : ModRM) : m.byte.toNat / 64 = m.mod.val := by
  obtain ⟨⟨mod, hmod⟩, ⟨reg, hreg⟩, ⟨rm, hrm⟩⟩ := m
  simp only [ModRM.byte, BitVec.toNat_ofNat]
  omega

theorem ModRM.toNat_byte_div_mod (m : ModRM) : m.byte.toNat / 8 % 8 = m.reg.val := by
  obtain ⟨⟨mod, hmod⟩, ⟨reg, hreg⟩, ⟨rm, hrm⟩⟩ := m
  simp only [ModRM.byte, BitVec.toNat_ofNat]
  omega

namespace Machine

/-- The list of reserved encodings, the second byte taken apart as a ModRM byte (R93, R104). -/
theorem reservedBytes_byte (b : Byte) (m : ModRM) :
    reservedBytes b m.byte = true ↔
      (0x60 ≤ b.toNat ∧ b.toNat ≤ 0x6F) ∨ (b = 0xC8 ∨ b = 0xC9 ∨ b = 0xD6 ∨ b = 0xF1) ∨ ((b = 0xF6 ∨ b = 0xF7) ∧ m.reg = 1) ∨
      ((b = 0xC0 ∨ b = 0xC1 ∨ b = 0xD0 ∨ b = 0xD1 ∨ b = 0xD2 ∨ b = 0xD3) ∧ m.reg = 6) ∨ (b = 0xFE ∧ 2 ≤ m.reg.val) ∨
      (b = 0xFF ∧ m.reg = 7) ∨ ((b = 0x8F ∨ b = 0xC6 ∨ b = 0xC7) ∧ m.reg ≠ 0) ∨ ((b = 0x8C ∨ b = 0x8E) ∧ 4 ≤ m.reg.val) ∨
      ((b = 0x8D ∨ b = 0xC4 ∨ b = 0xC5) ∧ m.mod = 3) ∨ (b = 0xFF ∧ (m.reg = 3 ∨ m.reg = 5) ∧ m.mod = 3) ∨
      (b = 0x0F ∧ 4 ≤ m.byte.toNat) := by
  simp only [reservedBytes, m.toNat_byte_div, m.toNat_byte_div_mod, Bool.or_eq_true, decide_eq_true_eq, or_assoc,
    ← BitVec.toNat_inj, Fin.ext_iff, ne_eq]
  rfl

theorem reservedBytes_of_first {b0 : Byte}
    (h : (0x60 ≤ b0.toNat ∧ b0.toNat ≤ 0x6F) ∨ b0 = 0xC8 ∨ b0 = 0xC9 ∨ b0 = 0xD6 ∨ b0 = 0xF1) (b1 : Byte) :
    reservedBytes b0 b1 = true := by
  rw [← ModRM.byte_ofByte b1, reservedBytes_byte]
  exact h.imp_right .inl

/-- Two bytes on the list begin the encoding of a reserved instruction. -/
theorem exists_reserved_of_reservedBytes {b0 b1 : Byte} (h : reservedBytes b0 b1 = true) :
    ∃ i tl, i.reserved = true ∧ i.wf = true ∧ encode i ++ tl = [b0, b1] := by
  obtain ⟨m, rfl⟩ : ∃ m : ModRM, m.byte = b1 := ⟨_, ModRM.byte_ofByte b1⟩
  rw [reservedBytes_byte] at h
  obtain h | (rfl | rfl | rfl | rfl) | ⟨h, hr⟩ | ⟨h, hr⟩ | ⟨rfl, hr⟩ | ⟨rfl, hr⟩ | ⟨h, hr⟩ | ⟨h, hr⟩ | ⟨h, hm⟩ |
      ⟨rfl, hr, hm⟩ | ⟨rfl, hs⟩ := h
  · have hx : BitVec.ofNat 8 (0x60 + (b0.toNat - 0x60)) = b0 := by
      rw [Nat.add_sub_cancel' h.1, BitVec.ofNat_toNat, BitVec.setWidth_eq]
    exact ⟨.reserved60to6F ⟨b0.toNat - 0x60, by omega⟩, [m.byte], rfl, rfl, congrArg (fun b => [b, m.byte]) hx⟩
  · exact ⟨.reservedC8C9 0, [m.byte], rfl, rfl, rfl⟩
  · exact ⟨.reservedC8C9 1, [m.byte], rfl, rfl, rfl⟩
  · exact ⟨.reservedD6, [m.byte], rfl, rfl, rfl⟩
  · exact ⟨.reservedF1, [m.byte], rfl, rfl, rfl⟩
  · obtain ⟨mod, reg, rm⟩ := m
    cases hr
    obtain rfl | rfl := h
    · exact ⟨.reservedF6F7 .byte mod rm, [], rfl, rfl, rfl⟩
    · exact ⟨.reservedF6F7 .word mod rm, [], rfl, rfl, rfl⟩
  · obtain ⟨mod, reg, rm⟩ := m
    cases hr
    obtain rfl | rfl | rfl | rfl | rfl | rfl := h
    · exact ⟨.reservedC0C1 .byte mod rm, [], rfl, rfl, rfl⟩
    · exact ⟨.reservedC0C1 .word mod rm, [], rfl, rfl, rfl⟩
    · exact ⟨.reservedD0toD3 .byte .one mod rm, [], rfl, rfl, rfl⟩
    · exact ⟨.reservedD0toD3 .word .one mod rm, [], rfl, rfl, rfl⟩
    · exact ⟨.reservedD0toD3 .byte .cl mod rm, [], rfl, rfl, rfl⟩
    · exact ⟨.reservedD0toD3 .word .cl mod rm, [], rfl, rfl, rfl⟩
  · exact ⟨.reservedFE m, [], rfl, decide_eq_true hr, rfl⟩
  · obtain ⟨mod, reg, rm⟩ := m
    cases hr
    exact ⟨.reservedFF7 mod rm, [], rfl, rfl, rfl⟩
  · obtain rfl | rfl | rfl := h
    · exact ⟨.reserved8F m, [], rfl, decide_eq_true hr, rfl⟩
    · exact ⟨.reservedC6 m, [], rfl, decide_eq_true hr, rfl⟩
    · exact ⟨.reservedC7 m, [], rfl, decide_eq_true hr, rfl⟩
  · obtain rfl | rfl := h
    · exact ⟨.reserved8C m, [], rfl, decide_eq_true hr, rfl⟩
    · exact ⟨.reserved8E m, [], rfl, decide_eq_true hr, rfl⟩
  · obtain ⟨mod, reg, rm⟩ := m
    cases hm
    obtain rfl | rfl | rfl := h
    · exact ⟨.reserved8D reg rm, [], rfl, rfl, rfl⟩
    · exact ⟨.reservedC4 reg rm, [], rfl, rfl, rfl⟩
    · exact ⟨.reservedC5 reg rm, [], rfl, rfl, rfl⟩
  · obtain ⟨mod, reg, rm⟩ := m
    cases hm
    obtain hr | hr := hr
    · cases hr
      exact ⟨.reservedFF3 rm, [], rfl, rfl, rfl⟩
    · cases hr
      exact ⟨.reservedFF5 rm, [], rfl, rfl, rfl⟩
  · exact ⟨.reserved0F m.byte, [], rfl, decide_eq_true hs, rfl⟩

/-- The encoding of a reserved instruction begins with two bytes on the list. -/
theorem reservedBytes_of_encode {i : Instr} {b0 b1 : Byte} {rest bs : List Byte} (hi : i.reserved = true) (hw : i.wf = true)
    (he : encode i ++ rest = b0 :: b1 :: bs) : reservedBytes b0 b1 = true := by
  cases i with
  -- the first byte is on the list by itself
  | reserved60to6F x =>
    obtain rfl := (List.cons.inj he).1
    refine reservedBytes_of_first (.inl ?_) b1
    simp only [Opcode.byte, BitVec.toNat_ofNat]
    omega
  | reservedC8C9 x =>
    obtain rfl := (List.cons.inj he).1
    match x with
    | 0 | 1 => exact reservedBytes_of_first (by decide) b1
  | reservedD6 | reservedF1 =>
    obtain rfl := (List.cons.inj he).1
    exact reservedBytes_of_first (by decide) b1
  -- with a second byte
  | reserved8C m | reserved8E m | reserved8F m | reservedC6 m | reservedC7 m | reservedFE m =>
    cases he
    exact (reservedBytes_byte _ m).2 (by simp [Opcode.byte, Width.num, of_decide_eq_true hw])
  | reserved8D reg rm | reservedC4 reg rm | reservedC5 reg rm | reservedFF3 rm | reservedFF5 rm | reservedFF7 mod rm =>
    cases he
    exact (reservedBytes_byte _ _).2 (by simp [Opcode.byte])
  | reservedC0C1 w mod rm | reservedF6F7 w mod rm =>
    cases he
    cases w <;> exact (reservedBytes_byte _ _).2 (by simp [Opcode.byte, Width.num])
  | reservedD0toD3 w count mod rm =>
    cases he
    cases w <;> cases count <;> exact (reservedBytes_byte _ _).2 (by simp [Opcode.byte, Width.num, ShiftCount.num])
  | reserved0F sub =>
    cases he
    obtain ⟨m, rfl⟩ : ∃ m : ModRM, m.byte = b1 := ⟨_, ModRM.byte_ofByte b1⟩
    exact (reservedBytes_byte _ m).2 (by simp [Opcode.byte, of_decide_eq_true hw])
  | _ => exact nomatch hi

/-- The decoder answers a reserved instruction exactly for the bytes on the list. -/
theorem reserved_iff_of_decode {i : Instr} {b0 b1 : Byte} {rest bs : List Byte} (h : decode (b0 :: b1 :: bs) = .ok (i, rest)) :
    i.reserved = true ↔ reservedBytes b0 b1 = true := by
  constructor
  · intro hi
    obtain ⟨hw, he⟩ := wf_and_encode_of_decode h
    exact reservedBytes_of_encode hi hw he
  · intro hb
    obtain ⟨j, tl, hj, hw, he⟩ := exists_reserved_of_reservedBytes hb
    have hd : decode (b0 :: b1 :: bs) = .ok (j, tl ++ bs) := by
      rw [show b0 :: b1 :: bs = encode j ++ (tl ++ bs) by rw [← List.append_assoc, he]; rfl]
      exact decode_encode hw _
    cases hd.symm.trans h
    exact hj

/-! ### What is refused -/

/-- The only refusal is that of a store which would break an invariant of the register page (10_state R36). -/
def OnlyStoresRefused (r : Result) : Prop := ∀ x, r = .refused x → x = .breaksPageInvariant

section

variable (s t : State) (w : Width) (l : Loc) (len : Nat)

@[simp] theorem onlyStores_next : OnlyStoresRefused (.next t) := fun _ e => nomatch e

@[simp] theorem onlyStores_fault (f : Fault) : OnlyStoresRefused (.fault f) := fun _ e => nomatch e

@[simp] theorem onlyStores_andThen {r : Result} {k : State → Result} (h : OnlyStoresRefused r)
    (hk : ∀ u, OnlyStoresRefused (k u)) : OnlyStoresRefused (andThen r k) := by
  cases r with
  | next u => exact hk u
  | fault f => exact onlyStores_fault f
  | refused x => exact h

@[simp] theorem onlyStores_setIP (v : Int) : OnlyStoresRefused (s.setIP v) := by
  unfold State.setIP
  split <;> simp

@[simp] theorem onlyStores_advance : OnlyStoresRefused (s.advance len) := onlyStores_setIP s _

@[simp] theorem onlyStores_jump (d : Int) : OnlyStoresRefused (s.jump len d) := onlyStores_setIP s _

@[simp] theorem onlyStores_goTo (off : Word) : OnlyStoresRefused (s.goTo off) := onlyStores_setIP s _

@[simp] theorem onlyStores_writeMem (a : Addr) (v : BitVec w.bits) : OnlyStoresRefused (s.writeMem w a v) := by
  unfold State.writeMem
  split
  · simp
  · exact fun _ e => (Host.Outcome.refused.inj e).symm

@[simp] theorem onlyStores_writeLoc (v : BitVec w.bits) : OnlyStoresRefused (s.writeLoc w l v) := by
  cases l with
  | reg i => exact onlyStores_next _
  | mem a => exact onlyStores_writeMem s w a v

@[simp] theorem onlyStores_storeThenNext (v : BitVec w.bits) : OnlyStoresRefused (s.storeThenNext w l v len) := by
  simp [State.storeThenNext]

@[simp] theorem onlyStores_writeBytes (a : Addr) (f : Nat → Byte) (i n : Nat) : OnlyStoresRefused (s.writeBytes a f i n) := by
  induction n generalizing s i with
  | zero => exact onlyStores_next s
  | succ n ih => exact onlyStores_andThen (onlyStores_writeMem s .byte _ _) fun u => ih u (i + 1)

@[simp] theorem onlyStores_push16 (v : Word) : OnlyStoresRefused (s.push16 v) := onlyStores_writeMem _ .word _ v

@[simp] theorem onlyStores_pushThenNext (v : Word) : OnlyStoresRefused (s.pushThenNext v len) := by
  simp [State.pushThenNext]

@[simp] theorem onlyStores_deliver (v : Byte) : OnlyStoresRefused (s.deliver v) :=
  onlyStores_andThen (onlyStores_push16 s _) fun a => onlyStores_andThen (onlyStores_push16 a _) fun b =>
    onlyStores_andThen (onlyStores_push16 b _) fun _ => onlyStores_next _

@[simp] theorem onlyStores_withReturn {k : Word → Result} (hk : ∀ v, OnlyStoresRefused (k v)) :
    OnlyStoresRefused (s.withReturn len k) := by
  unfold State.withReturn
  split
  · exact hk _
  · exact onlyStores_fault _

@[simp] theorem onlyStores_callFar (seg off : Word) : OnlyStoresRefused (s.callFar len seg off) :=
  onlyStores_withReturn s len fun _ => onlyStores_andThen (onlyStores_push16 s _) fun a =>
    onlyStores_andThen (onlyStores_push16 a _) fun _ => onlyStores_goTo _ off

@[simp] theorem onlyStores_interrupt (v : Byte) : OnlyStoresRefused (s.interrupt len v) := by
  simp [State.interrupt]

@[simp] theorem onlyStores_branch (taken : Bool) (rel : Byte) : OnlyStoresRefused (s.branch taken rel) := by
  unfold State.branch
  split <;> simp

@[simp] theorem onlyStores_alu (op : AluOp) (d e : BitVec w.bits) : OnlyStoresRefused (s.alu op w l d e len) := by
  unfold State.alu
  split <;> simp

@[simp] theorem onlyStores_shift (op : ShiftOp) (c0 : Nat) : OnlyStoresRefused (s.shift op w l c0 len) := by
  unfold State.shift
  split <;> simp

@[simp] theorem onlyStores_divideUnsigned (v : BitVec w.bits) : OnlyStoresRefused (s.divideUnsigned w v len) := by
  unfold State.divideUnsigned State.divideFault State.divided
  split
  · simp
  · split <;> simp

@[simp] theorem onlyStores_divideSigned (v : BitVec w.bits) : OnlyStoresRefused (s.divideSigned w v len) := by
  unfold State.divideSigned State.divideFault State.divided
  dsimp only
  split
  · simp
  · split <;> simp

theorem onlyStores_repeatBody {body : State → Result} (hb : ∀ u, OnlyStoresRefused (body u)) (n : Nat) :
    OnlyStoresRefused (repeatBody body n s) := by
  induction n generalizing s with
  | zero => exact onlyStores_next s
  | succ n ih => exact onlyStores_andThen (hb s) fun u => ih u.nextDraw

@[simp] theorem onlyStores_repeated {body : State → Result} (hb : ∀ u, OnlyStoresRefused (body u)) :
    OnlyStoresRefused (s.repeated body) := by
  unfold State.repeated
  split
  · exact onlyStores_andThen (onlyStores_repeatBody s hb _) fun u => onlyStores_advance _ 1
  · exact onlyStores_andThen (hb s) fun u => onlyStores_advance u 1

@[simp] theorem onlyStores_compareRepeated (pair : State → BitVec w.bits × BitVec w.bits) (update : State → State) :
    OnlyStoresRefused (s.compareRepeated w pair update) := by
  unfold State.compareRepeated State.compared
  split
  · split <;> simp
  · simp

theorem onlyStores_endOfCycle : OnlyStoresRefused s.endOfCycle := by
  refine onlyStores_andThen (onlyStores_andThen ?_ fun u => onlyStores_next _) fun u =>
    onlyStores_andThen ?_ fun v => onlyStores_next _
  · split <;> simp
  · unfold State.tickStep
    split <;> simp

end

theorem exec_reserved {i : Instr} (h : i.reserved = true) (s : State) : exec i s = .refused .reservedEncoding := by
  cases i with
  | reserved0F | reserved60to6F | reserved8C | reserved8D | reserved8E | reserved8F | reservedC0C1 | reservedC4 | reservedC5
  | reservedC6 | reservedC7 | reservedC8C9 | reservedD0toD3 | reservedD6 | reservedF1 | reservedF6F7 | reservedFE | reservedFF3
  | reservedFF5 | reservedFF7 => rfl
  | _ => exact nomatch h

/-- An instruction that is not reserved refuses nothing but a store (R36): its meaning, unfolded, is one of the operations above. -/
theorem onlyStores_exec {i : Instr} (h : i.reserved = false) (s : State) : OnlyStoresRefused (exec i s) := by
  cases i with
  -- jumps
  | jo | jno | jb | jae | je | jne | jbe | ja | js | jns | jp | jnp | jl | jge | jle | jg =>
    simp [exec, execJo, execJno, execJb, execJae, execJe, execJne, execJbe, execJa, execJs, execJns, execJp, execJnp, execJl,
      execJge, execJle, execJg, State.jumpIf]
  | loopne | loope | loop | jcxz | jmpRel8 | jmpRel16 | jmpPtr | jmpRm16 | jmpM1616 =>
    simp [exec, execLoopne, execLoope, execLoop, execJcxz, execJmpRel8, execJmpRel16, execJmpPtr, execJmpRm16, execJmpM1616,
      State.goToFar]
  -- calls, returns and interrupts
  | callRel16 | callPtr | callRm16 | callM1616 | ret | retImm16 | retf | retfImm16 | int | int3 | iret =>
    simp [exec, execCallRel16, execCallPtr, execCallRm16, execCallM1616, execRet, execRetImm16, execRetf, execRetfImm16,
      execInt, execInt3, execIret, State.interruptReturn]
  -- data movement
  | movRmR | movRRm | movRm8Imm8 | movRm16Imm16 | movR8Imm8 | movR16Imm16 | movAccMoffs | movMoffsAcc | movRm16Sreg
  | movSregRm16 | xchgAxR16 | nop | xchgRmR | lea | les | lds | xlat | cbw | cwd | lahf | sahf =>
    simp [exec, execMovRmR, execMovRRm, execMovRm8Imm8, execMovRm16Imm16, execMovR8Imm8, execMovR16Imm16, execMovAccMoffs,
      execMovMoffsAcc, execMovRm16Sreg, execMovSregRm16, execXchgAxR16, execNop, execXchgRmR, execLea, execLes, execLds,
      execXlat, execCbw, execCwd, execLahf, execSahf, State.loadFar]
  -- the stack
  | pushR16 | popR16 | pushSreg | popEs | popSs | popDs | pushRm16 | popRm16 | pushf | popf =>
    simp [exec, execPushR16, execPopR16, execPushSreg, execPopEs, execPopSs, execPopDs, execPushRm16, execPopRm16, execPushf,
      execPopf, State.popSegment]
  -- one operand
  | incR16 | decR16 | incRm | decRm | notRm | negRm | mulRm | imulRm | divRm | idivRm =>
    simp [exec, execIncR16, execDecR16, execIncRm, execDecRm, execNotRm, execNegRm, execMulRm, execImulRm, execDivRm,
      execIdivRm, State.increment, State.decrement, State.multiplyUnsigned, State.multiplySigned, State.multiply]
  -- two operands
  | addRmR | addAlImm8 | addAxImm16 | addRm8Imm8 | addRm16Imm16 | addRm16Simm8 | orRmR | orAlImm8 | orAxImm16 | orRm8Imm8
  | orRm16Imm16 | orRm16Simm8 | adcRmR | adcAlImm8 | adcAxImm16 | adcRm8Imm8 | adcRm16Imm16 | adcRm16Simm8 | sbbRmR | sbbAlImm8
  | sbbAxImm16 | sbbRm8Imm8 | sbbRm16Imm16 | sbbRm16Simm8 | andRmR | andAlImm8 | andAxImm16 | andRm8Imm8 | andRm16Imm16
  | andRm16Simm8 | subRmR | subAlImm8 | subAxImm16 | subRm8Imm8 | subRm16Imm16 | subRm16Simm8 | xorRmR | xorAlImm8 | xorAxImm16
  | xorRm8Imm8 | xorRm16Imm16 | xorRm16Simm8 | cmpRmR | cmpAlImm8 | cmpAxImm16 | cmpRm8Imm8 | cmpRm16Imm16 | cmpRm16Simm8 =>
    simp [exec, execAddRmR, execAddAlImm8, execAddAxImm16, execAddRm8Imm8, execAddRm16Imm16, execAddRm16Simm8, execOrRmR,
      execOrAlImm8, execOrAxImm16, execOrRm8Imm8, execOrRm16Imm16, execOrRm16Simm8, execAdcRmR, execAdcAlImm8, execAdcAxImm16,
      execAdcRm8Imm8, execAdcRm16Imm16, execAdcRm16Simm8, execSbbRmR, execSbbAlImm8, execSbbAxImm16, execSbbRm8Imm8,
      execSbbRm16Imm16, execSbbRm16Simm8, execAndRmR, execAndAlImm8, execAndAxImm16, execAndRm8Imm8, execAndRm16Imm16,
      execAndRm16Simm8, execSubRmR, execSubAlImm8, execSubAxImm16, execSubRm8Imm8, execSubRm16Imm16, execSubRm16Simm8,
      execXorRmR, execXorAlImm8, execXorAxImm16, execXorRm8Imm8, execXorRm16Imm16, execXorRm16Simm8, execCmpRmR, execCmpAlImm8,
      execCmpAxImm16, execCmpRm8Imm8, execCmpRm16Imm16, execCmpRm16Simm8, State.aluRmR, State.aluAlImm8, State.aluAxImm16,
      State.aluRm8Imm8, State.aluRm16Imm16, State.aluRm16Simm8]
  | testRmR | testAlImm8 | testAxImm16 | testRm8Imm8 | testRm16Imm16 =>
    simp [exec, execTestRmR, execTestAlImm8, execTestAxImm16, execTestRm8Imm8, execTestRm16Imm16, State.testValues]
  -- shifts and rotates
  | rolRm | rolRmImm8 | rorRm | rorRmImm8 | rclRm | rclRmImm8 | rcrRm | rcrRmImm8 | shlRm | shlRmImm8 | shrRm | shrRmImm8
  | sarRm | sarRmImm8 =>
    simp [exec, execRolRm, execRolRmImm8, execRorRm, execRorRmImm8, execRclRm, execRclRmImm8, execRcrRm, execRcrRmImm8,
      execShlRm, execShlRmImm8, execShrRm, execShrRmImm8, execSarRm, execSarRmImm8, State.shiftRm, State.shiftRmImm8]
  -- strings and prefixes
  | movs | cmps | stos | lods | scas | segOverride | rep | lock =>
    simp [exec, execMovs, execCmps, execStos, execLods, execScas, execSegOverride, execRep, execLock, State.movsBody,
      State.stosBody, State.lodsBody]
  -- decimal adjustment
  | daa | das | aaa | aas | aad =>
    simp [exec, execDaa, execDas, execAaa, execAas, execAad, State.asciiAdjust]
  -- ports, flags and hooks
  | inAccImm8 | inAccDx | outImm8Acc | outDxAcc | clc | stc | cli | sti | cld | std | cmc | hlt | wait | esc | putchar
  | getTime | diskRead | diskWrite =>
    simp [exec, execInAccImm8, execInAccDx, execOutImm8Acc, execOutDxAcc, execClc, execStc, execCli, execSti, execCld, execStd,
      execCmc, execHlt, execWait, execEsc, execPutchar, execGetTime, execDiskRead, execDiskWrite]
  -- those that trap on a condition
  | into =>
    simp only [exec, execInto]
    split <;> simp
  | aam base =>
    simp only [exec, execAam, State.divideFault]
    split <;> simp
  -- the reserved ones
  | _ => exact nomatch h

/-- A step of a running machine not at `CS = 0, IP = 0` refuses as reserved exactly the instructions that are. -/
theorem step_eq_reserved_iff {s : State} {i : Instr} {rest : List Byte} (hr : s.runState = .running)
    (h0 : ¬(s.reg .cs = 0 ∧ s.IP = 0)) (hd : decode s.fetchBytes = .ok (i, rest)) :
    step s = .refused .reservedEncoding ↔ i.reserved = true := by
  have hs : step s = andThen (exec i s.startCycle) State.endOfCycle := by
    simp only [step, hr, if_neg h0, hd]
  rw [hs]
  cases hi : i.reserved with
  | true => simp [exec_reserved hi]
  | false =>
    simp only [Bool.false_eq_true, iff_false]
    exact fun e => Refusal.noConfusion (onlyStores_andThen (onlyStores_exec hi _) onlyStores_endOfCycle _ e)

end Machine
end Sys2Proof

open Sys2Proof Sys2Proof.Machine

/-- Settles O60: the six bytes fetched decode, to a reserved instruction exactly if the first two are on the list; any other refuses
stores only. -/
theorem reservedEncodings : Obligations.ReservedEncodings := by
  unfold Obligations.ReservedEncodings
  refine ⟨fun s hr h0 => ?_, fun s sub x16 x2 m w count mod reg rm i hi => exec_reserved ?_ s⟩
  · obtain ⟨i, rest, hd⟩ := exists_decode (bs := s.fetchBytes) (Nat.le_refl 6)
    exact (step_eq_reserved_iff hr h0 hd).trans (reserved_iff_of_decode hd)
  · exact List.all_eq_true.1 (by rfl) i hi

end

section
/-! PROOFS. The conditional transfers (40_cond_jump R130, R131): a branch of two bytes, and what the flags say of each condition. -/

namespace Sys2Proof.Machine

/-- A meaning that is a branch of two bytes from the offset at which it started. -/
theorem jumpsOn_branch {i : Instr} {s t : State} {taken : Bool} {cond : Prop} {rel : Byte} (h : exec i s = t.branch taken rel)
    (hip : t.IP = s.IP) (hc : taken = true ↔ cond) : JumpsOn i s t cond rel := by
  refine ⟨fun hcond => jumpsTo_setIP ?_, fun hcond => jumpsTo_setIP ?_⟩
  · rw [h, State.branch, if_pos (hc.2 hcond), State.jump_eq, hip, Nat.cast_ofNat]
  · rw [h, State.branch, if_neg (mt hc.1 hcond), State.advance_eq, hip, Nat.cast_ofNat]

/-- What a condition says of the flags, in the words of R132 to R147. -/
def JumpCondition (c : Cond) (f : Flags) : Prop :=
  match c with
  | .o => f.OF = true
  | .no => f.OF = false
  | .b => f.CF = true
  | .ae => f.CF = false
  | .e => f.ZF = true
  | .ne => f.ZF = false
  | .be => f.CF = true ∨ f.ZF = true
  | .a => f.CF = false ∧ f.ZF = false
  | .s => f.SF = true
  | .ns => f.SF = false
  | .p => f.PF = true
  | .np => f.PF = false
  | .l => f.SF ≠ f.OF
  | .ge => f.SF = f.OF
  | .le => f.ZF = true ∨ f.SF ≠ f.OF
  | .g => f.ZF = false ∧ f.SF = f.OF

theorem condHolds_of_not_inverts {c : Cond} (h : condInverts c = false) (f : Flags) : condHolds c f = condPred c f := by
  rw [condHolds, h, Bool.false_xor]

theorem condHolds_of_inverts {c : Cond} (h : condInverts c = true) (f : Flags) : condHolds c f = !condPred c f := by
  rw [condHolds, h, Bool.true_xor]

/-- The predicate of a class decides its condition at the even opcode, and its negation the one at the odd opcode (R130, R131). -/
theorem condHolds_iff (c : Cond) (f : Flags) : condHolds c f = true ↔ JumpCondition c f := by
  cases c with
  | o | b | e | be | s | p | l | le =>
    rw [condHolds_of_not_inverts rfl]
    simp [condPred, jumpPred, selected, Flags.get, JumpCondition]
  | no | ae | ne | a | ns | np | ge | g =>
    rw [condHolds_of_inverts rfl]
    simp [condPred, jumpPred, selected, Flags.get, JumpCondition]

theorem exec_jcc (c : Cond) (rel : Byte) (s : State) : exec (.jcc c rel) s = s.branch (condHolds c s.flags) rel := by
  cases c <;> rfl

theorem jumpsOn_jcc (c : Cond) (rel : Byte) (s : State) : JumpsOn (.jcc c rel) s s (JumpCondition c s.flags) rel :=
  jumpsOn_branch (exec_jcc c rel s) rfl (condHolds_iff c s.flags)

/-- The opcode byte of a conditional jump and its meaning (R130). -/
theorem encode_jcc_and_jumpsOn (s : State) (rel : Byte) (c : Cond) :
    encode (.jcc c rel) = [BitVec.ofNat 8 (0x70 + c.num), rel] ∧ JumpsOn (.jcc c rel) s s (JumpCondition c s.flags) rel :=
  ⟨encode_jcc c rel, jumpsOn_jcc c rel s⟩

end Sys2Proof.Machine

open Sys2Proof Sys2Proof.Machine

/-- Settles O25: the rule common to the sixteen, at the conditions of the classes 0 to 3. -/
theorem conditionalJumpsUnsigned : Obligations.ConditionalJumpsUnsigned := by
  unfold Obligations.ConditionalJumpsUnsigned
  intro s rel
  have jcc := encode_jcc_and_jumpsOn s rel
  exact ⟨jcc .o, jcc .no, jcc .b, jcc .ae, jcc .e, jcc .ne, jcc .be, jcc .a⟩

/-- Settles O26: the rule common to the sixteen, at the conditions of the classes 4 to 7. -/
theorem conditionalJumpsSigned : Obligations.ConditionalJumpsSigned := by
  unfold Obligations.ConditionalJumpsSigned
  intro s rel
  have jcc := encode_jcc_and_jumpsOn s rel
  exact ⟨jcc .s, jcc .ns, jcc .p, jcc .np, jcc .l, jcc .ge, jcc .le, jcc .g⟩

end

section
/-! PROOFS. Words written out from the encodings of their rules (30_encoding R90 to R103). -/

open Sys2Proof

/-- Settles O3: each word is the encoding of its instruction, which the decoder reads back. -/
theorem decodedWords : Obligations.DecodedWords := by
  unfold Obligations.DecodedWords
  have reads {i : Instr} {bs : List Byte} (hw : i.wf = true) (he : encode i = bs) : decode bs = .ok (i, []) := by
    simpa [he] using decode_encode hw []
  exact ⟨reads rfl rfl, reads rfl rfl, reads rfl rfl, reads rfl rfl, reads rfl rfl, reads rfl rfl, reads rfl rfl, reads rfl rfl,
    reads rfl rfl, reads rfl rfl, reads rfl rfl⟩

end

section
/-! PROOFS. Data movement (41_data_movement): moves, loads, exchanges, pushes and pops, `INC` and `DEC`,
and the instructions that only advance `IP`. -/

namespace Sys2Proof.Machine

variable {i : Instr} {s t : State} {len : Nat}

theorem jumpsTo_advance (h : exec i s = s.advance len) : JumpsTo i s s (s.IP.toNat + len) :=
  jumpsTo_setIP (h.trans (s.advance_eq len))

/-! ### Reads outside what a frame lets change -/

theorem Frame.readMem_eq {A : List Addr} {w : Width} {a : Addr} (h : Frame s t A []) (ha : ∀ b ∈ bytesAt w a, b ∉ A) :
    t.readMem w a = s.readMem w a := by
  have byte {b : Addr} (hb : b ∈ bytesAt w a) : t.readByte b = s.readByte b := h.1 b (ha b hb) (by simp)
  cases w with
  | byte => exact byte (by simp [bytesAt])
  | word => exact congrArg₂ (· ++ ·) (byte (by simp [bytesAt])) (byte (by simp [bytesAt]))

theorem Frame.readReg_eq {A : List Addr} {w : Width} {r : RegNum} (h : Frame s t A [])
    (hr : ∀ b ∈ bytesAt w (regAddr w r), b ∉ A) : t.readReg w r = s.readReg w r := by
  have e := h.readMem_eq hr
  rwa [State.readLoc_regAddr, State.readLoc_regAddr] at e

@[simp] theorem State.writeReg_mem (s : State) (w : Width) (r : RegNum) (v : BitVec w.bits) : (s.writeReg w r v).mem = s.mem := by
  cases w <;> rfl

/-! ### Two registers -/

/-- Two registers written one after the other change their bytes only. -/
theorem frame_setReg_setReg (s : State) (p q : Reg) (u v : Word) :
    Frame s ((s.setReg p u).setReg q v) (p.bytes ++ q.bytes) [] :=
  (frame_setReg_bytes s p u).trans (frame_setReg_bytes _ q v)

theorem Reg.ofNum_ne_ofSReg (sr : SReg) : ∀ r : RegNum, Reg.ofNum r ≠ Reg.ofSReg sr := by cases sr <;> decide

/-- The meaning of `LES` and `LDS` (R173, R174). -/
theorem runsTo_loadFar {sr : SReg} {reg : RegNum} {m : MemOperand} (h : exec i s = s.loadFar sr reg m) :
    RunsTo i s (2 + m.dispLen) fun t =>
      t.reg (Reg.ofNum reg) = s.readMem .word (m.addr s) ∧ t.reg (Reg.ofSReg sr) = s.readMem .word (m.addr s + 2) ∧
        Frame s t ((Reg.ofNum reg).bytes ++ (Reg.ofSReg sr).bytes) [] := by
  refine runsTo_advance h rfl ⟨?_, State.reg_setReg_same _ _ _, frame_setReg_setReg s _ _ _ _⟩
  rw [State.reg_setReg_other _ _ (Reg.ofNum_ne_ofSReg sr reg), State.reg_setReg_same]
  rfl

/-! ### Pushes and pops -/

/-- A meaning that is one push and `SetIP(next)`. -/
theorem storesTo_push {v : Word} (hm : s.mem.wf memSize = true) (h : exec i s = s.pushThenNext v len) :
    StoresTo i s (canStore .word (s.stackBelow 2) v) len fun t => Pushes s t v := by
  rw [State.pushThenNext, State.push16_eq] at h
  exact storesTo_writeLoc (l := .mem (s.stackBelow 2)) (g := id) h rfl (fun _ => rfl) (pushes_putMem hm)

/-- A meaning that pops the word at `SS:SP` into a register (R160, R162). -/
theorem runsTo_pop {q : Reg} (h : exec i s = (s.pop16.setReg q s.stackTop).advance 1) :
    RunsTo i s 1 fun t =>
      t.reg q = s.stackTop ∧ (q ≠ .sp → t.reg .sp = s.reg .sp + 2) ∧ Frame s t (q.bytes ++ Reg.sp.bytes) [] := by
  refine runsTo_advance h rfl ⟨State.reg_setReg_same _ q _, fun hq => ?_, ?_⟩
  · rw [State.reg_setReg_other _ _ hq.symm, State.pop16_eq, State.reg_setReg_same]
    rfl
  · exact (frame_setReg_setReg s .sp q _ _).mono List.perm_append_comm.subset (by simp)

/-- What a store after a pop leaves (R164). -/
theorem putLoc_pop16_spec {l : Loc} {v : Word} (hm : s.mem.wf memSize = true) (hc : canStoreLoc .word l v = true) :
    Holds (s.pop16.putLoc .word l v) .word (l.addr .word) v ∧
      RegIs (s.pop16.putLoc .word l v) .sp (s.reg .sp + 2) (l.bytes .word) ∧
      Frame s (s.pop16.putLoc .word l v) (l.bytes .word ++ Reg.sp.bytes) [] := by
  have hm' : s.pop16.mem.wf memSize = true := hm
  have hf := frame_putLoc .word l v hm'
  refine ⟨holds_putLoc hm' hc, fun h => ?_, ?_⟩
  · rw [hf.2.1 .sp (h _ (by simp [Reg.bytes])) (h _ (by simp [Reg.bytes])), State.pop16_eq, State.reg_setReg_same]
    rfl
  · exact ((frame_setReg_bytes s .sp _).trans hf).mono List.perm_append_comm.subset (by simp)

/-! ### Exchange -/

/-- What `XCHG reg, r/m` leaves (R171): the register is written, then the operand. -/
theorem putLoc_writeReg_spec {w : Width} {r : RegNum} {l : Loc} {u v : BitVec w.bits} (hm : s.mem.wf memSize = true)
    (hc : canStoreLoc w l v = true) :
    Holds ((s.writeReg w r u).putLoc w l v) w (l.addr w) v ∧
      ((∀ a ∈ bytesAt w (regAddr w r), a ∉ l.bytes w) → ((s.writeReg w r u).putLoc w l v).readReg w r = u) ∧
      Frame s ((s.writeReg w r u).putLoc w l v) (bytesAt w (regAddr w r) ++ l.bytes w) [] := by
  have hm' : (s.writeReg w r u).mem.wf memSize = true := by rwa [State.writeReg_mem]
  have hf := frame_putLoc w l v hm'
  refine ⟨holds_putLoc hm' hc, fun h => ?_, (frame_writeReg s w r u).trans hf⟩
  rw [hf.readReg_eq h, State.readReg_writeReg_same]

/-! ### `INC` and `DEC` -/

/-- A meaning that stores a value, then sets the flags in `fl` by a rule that reads no other flag and changes none. -/
theorem storesTo_thenFlags {w : Width} {l : Loc} {v : BitVec w.bits} {rule : Flags → Flags} {fl : List Flag}
    (hm : s.mem.wf memSize = true)
    (h : exec i s = andThen (s.writeLoc w l v) fun t => (t.setFlags (rule t.flags)).advance len)
    (hother : ∀ f x, x ∉ fl → (rule f).get x = f.get x) (hset : ∀ f g, ∀ x ∈ fl, (rule f).get x = (rule g).get x) :
    StoresTo i s (canStoreLoc w l v) len fun t => StoresAndFlags s t w l v (rule s.flags) fl false :=
  storesTo_writeLoc (g := fun t => t.setFlags (rule t.flags)) h rfl (fun _ => rfl) fun hc =>
    storesAndFlags_storeFirst hm hc (hother _) (hset _ _)

/-- The flags of `INC` and `DEC` (R182). -/
def stepFlags : List Flag := [.pf, .af, .zf, .sf, .of]

/-- The rule of the flags of `INC` and `DEC`, `r` being the result (R182). -/
def Flags.stepped {n : Nat} (r : BitVec n) (af overflow : Bool) (f : Flags) : Flags :=
  { f.setSZP r with AF := af, OF := overflow }

theorem Flags.get_stepped_other {n : Nat} (r : BitVec n) (af overflow : Bool) (f : Flags) (x : Flag) (h : x ∉ stepFlags) :
    (f.stepped r af overflow).get x = f.get x := by
  cases x with
  | cf | tf | intf | df => rfl
  | pf | af | zf | sf | of => exact absurd h (by decide)

theorem Flags.get_stepped_congr {n : Nat} (r : BitVec n) (af overflow : Bool) (f g : Flags) (x : Flag) (h : x ∈ stepFlags) :
    (f.stepped r af overflow).get x = (g.stepped r af overflow).get x := by
  cases x with
  | cf | tf | intf | df => exact absurd h (by decide)
  | pf | af | zf | sf | of => rfl

theorem storesTo_increment {w : Width} {l : Loc} (hm : s.mem.wf memSize = true) (h : exec i s = s.increment w l len) :
    StoresTo i s (canStoreLoc w l (s.readLoc w l + 1)) len fun t =>
      StoresAndFlags s t w l (s.readLoc w l + 1) (s.flags.inc (s.readLoc w l) (s.readLoc w l + 1)) stepFlags false :=
  storesTo_thenFlags (rule := fun f => f.inc (s.readLoc w l) (s.readLoc w l + 1)) hm h (Flags.get_stepped_other _ _ _)
    (Flags.get_stepped_congr _ _ _)

theorem storesTo_decrement {w : Width} {l : Loc} (hm : s.mem.wf memSize = true) (h : exec i s = s.decrement w l len) :
    StoresTo i s (canStoreLoc w l (s.readLoc w l - 1)) len fun t =>
      StoresAndFlags s t w l (s.readLoc w l - 1) (s.flags.dec (s.readLoc w l) (s.readLoc w l - 1)) stepFlags false :=
  storesTo_thenFlags (rule := fun f => f.dec (s.readLoc w l) (s.readLoc w l - 1)) hm h (Flags.get_stepped_other _ _ _)
    (Flags.get_stepped_congr _ _ _)

/-! ### Sign extension -/

theorem ite_msb_eq_ofNat {n m : Nat} (v : BitVec n) (k : Nat) :
    (if v.msb then BitVec.ofNat m k else 0#m) = BitVec.ofNat m (if 2 ^ (n - 1) ≤ v.toNat then k else 0) := by
  rw [BitVec.msb_eq_decide, apply_ite (BitVec.ofNat m)]
  simp only [decide_eq_true_eq]

end Sys2Proof.Machine

open Sys2Proof Sys2Proof.Machine

/-- Settles O39: the meaning of each is `SetIP(next)`. -/
theorem noOperations : Obligations.NoOperations := by
  unfold Obligations.NoOperations
  intro s x reg rm i len
  refine ⟨⟨rfl, rfl, rfl, rfl⟩, fun h => jumpsTo_advance ?_⟩
  simp only [List.mem_cons, List.not_mem_nil, or_false, Prod.mk.injEq] at h
  obtain ⟨rfl, rfl⟩ | ⟨rfl, rfl⟩ | ⟨rfl, rfl⟩ | ⟨rfl, rfl⟩ | ⟨rfl, rfl⟩ := h <;> rfl

/-- Settles O33: each is the store of its value to the location of its operand. -/
theorem movesToMemory : Obligations.MovesToMemory := by
  unfold Obligations.MovesToMemory
  intro s w reg sr rm imm8 imm16 addr hm
  exact ⟨storesOnly_storeLoc hm rfl, storesOnly_storeLoc hm rfl, storesOnly_storeLoc hm rfl, storesOnly_storeLoc hm rfl,
    storesOnly_storeLoc hm rfl⟩

/-- Settles O34: each is a write of one register, and of two for `LES` and `LDS`. -/
theorem registerLoads : Obligations.RegisterLoads := by
  unfold Obligations.RegisterLoads
  intro s w reg sr rm m imm8 imm16 addr
  refine ⟨runsTo_writeReg rfl, runsTo_writeReg (w := .byte) rfl, runsTo_writeReg (w := .word) rfl, runsTo_writeReg rfl,
    runsTo_setReg rfl, runsTo_setReg rfl, ?xlat, ?cbw, ?cwd, ?lahf, ?far⟩
  case xlat =>
    rw [BitVec.ofNat_toNat]
    exact runsTo_writeReg (w := .byte) rfl
  case cbw => exact ite_msb_eq_ofNat s.AL 0xFF ▸ runsTo_writeReg (w := .byte) rfl
  case cwd => exact ite_msb_eq_ofNat (s.reg .ax) 0xFFFF ▸ runsTo_setReg rfl
  case lahf => exact byteOf_eq_extractLsb' false s.flags.pack ▸ runsTo_writeReg (w := .byte) rfl
  case far =>
    rintro i q (⟨rfl, rfl⟩ | ⟨rfl, rfl⟩)
    · exact runsTo_loadFar (sr := .es) rfl
    · exact runsTo_loadFar (sr := .ds) rfl

/-- Settles O35: both values are those of the state before; of two writes to one place the last stands. -/
theorem exchanges : Obligations.Exchanges := by
  unfold Obligations.Exchanges
  intro s w reg rm
  refine ⟨runsTo_advance (t := (s.setReg .ax (s.reg (Reg.ofNum reg))).setReg (Reg.ofNum reg) (s.reg .ax)) rfl rfl
    ⟨?_, State.reg_setReg_same _ _ _, frame_setReg_setReg s _ _ _ _⟩, fun hm => ?_⟩
  · by_cases h : Reg.ax = Reg.ofNum reg
    · rw [← h, State.reg_setReg_same]
    · rw [State.reg_setReg_other _ _ h, State.reg_setReg_same]
  · exact storesTo_writeLoc (g := id) rfl (State.writeReg_IP s w reg _) (fun _ => rfl) (putLoc_writeReg_spec hm)

/-- Settles O36: each is one push. -/
theorem pushInstructions : Obligations.PushInstructions := by
  unfold Obligations.PushInstructions
  intro s r sr rm i v len hm h
  refine storesTo_push hm ?_
  simp only [List.mem_cons, List.not_mem_nil, or_false, Prod.mk.injEq] at h
  obtain ⟨rfl, rfl, rfl⟩ | ⟨rfl, rfl, rfl⟩ | ⟨rfl, rfl, rfl⟩ | ⟨rfl, rfl, rfl⟩ := h <;> rfl

/-- Settles O37: each is one pop, then a write of its destination. -/
theorem popInstructions : Obligations.PopInstructions := by
  unfold Obligations.PopInstructions
  rintro s r rm v rfl
  refine ⟨fun i q h => runsTo_pop ?_, ?_, fun hm => ?_⟩
  · simp only [List.mem_cons, List.not_mem_nil, or_false, Prod.mk.injEq] at h
    obtain ⟨rfl, rfl⟩ | ⟨rfl, rfl⟩ | ⟨rfl, rfl⟩ | ⟨rfl, rfl⟩ := h <;> rfl
  · refine runsTo_advance (t := s.pop16.setFlags (Flags.unpack s.stackTop)) rfl rfl
      ⟨fun _ _ _ => rfl, State.reg_setReg_same s .sp _, ?_⟩
    exact (frame_setReg_bytes s .sp _).trans (frame_setFlags fun x hx => absurd (mem_allFlags x) hx)
  · exact storesTo_writeLoc (g := id) rfl rfl (fun _ => rfl) (putLoc_pop16_spec hm)

/-- Settles O40: each is an increment or a decrement of its location. -/
theorem incrementDecrement : Obligations.IncrementDecrement := by
  unfold Obligations.IncrementDecrement
  intro s w r rm hm
  refine ⟨fun i wd l len h => storesTo_increment hm ?_, fun i wd l len h => storesTo_decrement hm ?_⟩
  all_goals obtain ⟨rfl, rfl, rfl, rfl⟩ | ⟨rfl, rfl, rfl, rfl⟩ := h <;> rfl

end

section
/-! PROOFS. The flags of `INC` and `DEC` as numbers (41_data_movement R182). -/

namespace Sys2Proof.Machine

variable {n : Nat}

/-- Bit 4 of the exclusive or of two operands and their sum is the carry out of bit 3 (43_alu R221). -/
theorem getLsbD_xor_add (d e : BitVec n) (hn : 4 < n) :
    (d ^^^ e ^^^ (d + e)).getLsbD 4 = decide (16 ≤ d.toNat % 16 + e.toNat % 16) := by
  have hcarry : (d ^^^ e ^^^ (d + e)).getLsbD 4 = BitVec.carry 4 d e false := by
    rw [BitVec.getLsbD_xor, BitVec.getLsbD_xor, BitVec.getLsbD_add hn]
    cases d.getLsbD 4 <;> cases e.getLsbD 4 <;> simp
  simp [hcarry, BitVec.carry]

/-- Of a difference it is the borrow into bit 3: the sum of the difference and the subtrahend is the minuend. -/
theorem getLsbD_xor_sub (d e : BitVec n) (hn : 4 < n) :
    (d ^^^ e ^^^ (d - e)).getLsbD 4 = decide (d.toNat % 16 < e.toNat % 16) := by
  have h := getLsbD_xor_add (d - e) e hn
  rw [BitVec.sub_add_cancel] at h
  have hd : ((d - e).toNat + e.toNat) % 16 = d.toNat % 16 := by
    have := congrArg (BitVec.toNat · % 16) (BitVec.sub_add_cancel d e)
    rwa [BitVec.toNat_add, Nat.mod_mod_of_dvd _ (Nat.pow_dvd_pow 2 hn.le)] at this
  rw [show d ^^^ e ^^^ (d - e) = d - e ^^^ e ^^^ d by ac_rfl, h, decide_eq_decide]
  omega

/-- Adding 1 gives the smallest signed number exactly if the exact sum is out of range. -/
theorem add_one_eq_intMin_iff (d : BitVec n) : d + 1#n = BitVec.intMin n ↔ d.toInt + 1 = 2 ^ (n - 1) := by
  rw [← BitVec.intMax_add_one, BitVec.add_left_inj, ← BitVec.toInt_inj, BitVec.toInt_intMax]
  omega

theorem eq_intMin_iff (hn : 0 < n) (d : BitVec n) : d = BitVec.intMin n ↔ d.toInt = -2 ^ (n - 1) := by
  rw [← BitVec.toInt_inj, BitVec.toInt_intMin_of_pos hn]

theorem add_one_eq_zero_iff (d : BitVec n) : d + 1#n = 0#n ↔ d.toNat + 1 = 2 ^ n := by
  have hlt := d.isLt
  rw [← BitVec.sub_add_cancel 0#n 1#n, BitVec.add_left_inj, BitVec.zero_sub, BitVec.neg_one_eq_allOnes, ← BitVec.toNat_inj,
    BitVec.toNat_allOnes]
  omega

theorem sub_one_eq_zero_iff (hn : 0 < n) (d : BitVec n) : d - 1#n = 0#n ↔ d.toNat = 1 := by
  rw [BitVec.sub_eq_iff_eq_add, BitVec.zero_add, ← BitVec.toNat_inj, BitVec.toNat_ofNat, Nat.one_mod_two_pow hn]

theorem beq_eq_decide_of_iff {a b : BitVec n} {p : Prop} [Decidable p] (h : a = b ↔ p) : (a == b) = decide p :=
  (beq_eq_decide a b).trans (decide_eq_decide.2 h)

theorem four_lt_bits (w : Width) : 4 < w.bits := by cases w <;> decide

/-! ### `INC` and `DEC` -/

variable (f : Flags) (d : BitVec n)

theorem Flags.inc_AF (hn : 4 < n) : (f.inc d (d + 1#n)).AF = decide (d.toNat % 16 = 15) := by
  show (d ^^^ 1#n ^^^ (d + 1#n)).getLsbD 4 = _
  rw [getLsbD_xor_add d 1#n hn, BitVec.toNat_ofNat, Nat.one_mod_two_pow (by omega), decide_eq_decide]
  omega

theorem Flags.dec_AF (hn : 4 < n) : (f.dec d (d - 1#n)).AF = decide (d.toNat % 16 = 0) := by
  show (d ^^^ 1#n ^^^ (d - 1#n)).getLsbD 4 = _
  rw [getLsbD_xor_sub d 1#n hn, BitVec.toNat_ofNat, Nat.one_mod_two_pow (by omega), decide_eq_decide]
  omega

end Sys2Proof.Machine

open Sys2Proof Sys2Proof.Machine

/-- Settles O41: `AF` is a carry or a borrow of bit 3, and `OF` and `ZF` compare the operand or the result with one number. -/
theorem incrementFlagRules : Obligations.IncrementFlagRules := by
  unfold Obligations.IncrementFlagRules
  intro f w d
  have hn := four_lt_bits w
  have hpos : 0 < w.bits := by omega
  exact ⟨⟨rfl, rfl⟩, ⟨f.inc_AF d hn, f.dec_AF d hn⟩,
    ⟨beq_eq_decide_of_iff (add_one_eq_intMin_iff d), beq_eq_decide_of_iff (eq_intMin_iff hpos d)⟩,
    ⟨beq_eq_decide_of_iff (add_one_eq_zero_iff d), beq_eq_decide_of_iff (sub_one_eq_zero_iff hpos d)⟩, ⟨rfl, rfl⟩, rfl, rfl⟩

end

section
/-! PROOFS. `NOT`, `NEG` and every form of `TEST` (42_unary_muldiv R201 to R203, 43_alu R231, R232). -/

namespace Sys2Proof.Machine

variable {i : Instr} {s : State} {len n : Nat}

/-! ### The flags that arithmetic and logic set (43_alu R221, R222) -/

/-- What changes neither `TF`, `IF` nor `DF` changes no flag but the six of the status. -/
theorem Flags.get_of_not_mem_statusFlags {f g : Flags} (ht : g.TF = f.TF) (hi : g.IF = f.IF) (hd : g.DF = f.DF) (x : Flag)
    (hx : x ∉ statusFlags) : g.get x = f.get x := by
  cases x with
  | tf => exact ht
  | intf => exact hi
  | df => exact hd
  | cf | pf | af | zf | sf | of => exact absurd hx (by decide)

theorem Flags.get_arith_other (f : Flags) (d e r : BitVec n) (c : Bool) : ∀ x, x ∉ statusFlags →
    (f.arith d e r c).get x = f.get x :=
  Flags.get_of_not_mem_statusFlags (f := f) (g := f.arith d e r c) rfl rfl rfl

/-- The rule of the arithmetic flags reads no flag. -/
theorem Flags.get_arith_congr (f g : Flags) (d e r : BitVec n) (c : Bool) (x : Flag) (hx : x ∈ statusFlags) :
    (f.arith d e r c).get x = (g.arith d e r c).get x := by
  cases x with
  | tf | intf | df => exact absurd hx (by decide)
  | cf | pf | af | zf | sf | of => rfl

theorem Flags.get_logic_other (f : Flags) (r : BitVec n) (x : Flag) (hx : x ∉ logicFlags) :
    (f.logic r).get x = f.get x := by
  cases x with
  | af | tf | intf | df => rfl
  | cf | pf | zf | sf | of => exact absurd hx (by decide)

/-! ### `NEG` (R203) -/

/-- The flags of `NEG` are those of the subtraction of the operand from 0. Of an operand that is not 0 the negation has the other
sign, unless the operand is the smallest signed number. -/
theorem Flags.neg_eq_arith (hn : 0 < n) (f : Flags) (d : BitVec n) : f.neg d (-d) = f.arith 0 d (-d) (d != 0) := by
  have hOF : (d == BitVec.intMin n) = if -d = 0 then false else (d != 0) ^^ (0 ^^^ d ^^^ -d).msb := by
    by_cases hd : d = 0
    · have hmin : 0#n ≠ BitVec.intMin n := by simp [← BitVec.toInt_inj, BitVec.toInt_intMin_of_pos hn]
      simp [hd, hmin]
    · have hne : (d == 0#n) = false := by simpa using hd
      have hneg : ¬-d = 0 := by simpa using hd
      rw [if_neg hneg, show (0 : BitVec n) ^^^ d = d from BitVec.zero_xor, BitVec.msb_xor, BitVec.msb_neg]
      cases d.msb <;> simp [bne, hne]
  simp [Flags.neg, Flags.arith, hOF]

theorem storesTo_negate {w : Width} {l : Loc} {d : BitVec w.bits} (hm : s.mem.wf memSize = true)
    (h : exec i s = andThen (s.writeLoc w l (-d)) fun t => (t.setFlags (t.flags.neg d (-d))).advance len) :
    StoresTo i s (canStoreLoc w l (-d)) len fun t =>
      StoresAndFlags s t w l (-d) (s.flags.arith 0 d (-d) (d != 0)) statusFlags false := by
  have hw : 0 < w.bits := Nat.zero_lt_of_lt (four_lt_bits w)
  simp only [Flags.neg_eq_arith hw] at h
  exact storesTo_thenFlags hm h (fun f => f.get_arith_other _ _ _ _) fun f g => f.get_arith_congr g _ _ _ _

/-! ### `TEST` (R201) -/

theorem flagsOnly_testValues {a b : BitVec n} (h : exec i s = s.testValues a b len) :
    FlagsOnly i s (s.flags.logic (a &&& b)) logicFlags len :=
  flagsOnly_setFlags h (s.flags.get_logic_other _)

end Sys2Proof.Machine

open Sys2Proof Sys2Proof.Machine

/-- Settles O42: `NOT` is a store, `NEG` a store and then the flags of a subtraction, `TEST` the flags of a logic operation. -/
theorem notNegTest : Obligations.NotNegTest := by
  unfold Obligations.NotNegTest
  intro s w reg rm imm8 imm16 hm
  exact ⟨storesOnly_storeLoc hm rfl, storesTo_negate hm rfl, flagsOnly_testValues rfl, flagsOnly_testValues rfl,
    flagsOnly_testValues rfl, flagsOnly_testValues rfl, flagsOnly_testValues rfl⟩

end

section
/-! PROOFS. The multiplies and the divides (42_unary_muldiv R204 to R208): the double-width accumulator and its two halves, then the
exact product, and quotient and remainder. -/

namespace Sys2Proof.Machine

variable {i : Instr} {s : State} {len n : Nat}

theorem RunsTo.mono {p q : State → Prop} (h : RunsTo i s len p) (hpq : ∀ t, p t → q t) : RunsTo i s len q := by
  obtain ⟨hfit, hrun⟩ := h
  refine ⟨fun hf => ?_, hrun⟩
  obtain ⟨t, he, hip, ht⟩ := hfit hf
  exact ⟨t, he, hip, hpq t ht⟩

/-! ### The double-width accumulator -/

/-- The high half of the double-width accumulator; the low half is register 0 at either width. -/
def State.accHigh (s : State) (w : Width) : BitVec w.bits :=
  match w with
  | .byte => s.reg8 4
  | .word => s.reg .dx

/-- The bytes of the double-width accumulator in the page. -/
def accBytes (w : Width) : List Addr :=
  match w with
  | .byte => Reg.ax.bytes
  | .word => Reg.ax.bytes ++ Reg.dx.bytes

theorem State.wideAcc_eq_append (s : State) (w : Width) : s.wideAcc w = s.accHigh w ++ s.readReg w 0 := by
  cases w with
  | byte => exact (byteOf_append_byteOf (s.reg .ax)).symm
  | word => rfl

@[simp] theorem State.accHigh_setWideAcc (s : State) (w : Width) (hi lo : BitVec w.bits) :
    (s.setWideAcc w hi lo).accHigh w = hi := by
  cases w with
  | byte => exact (congrArg (byteOf true) (State.reg_setReg_same s .ax _)).trans (byteOf_true_append hi lo)
  | word => exact State.reg_setReg_same _ .dx hi

@[simp] theorem State.accLow_setWideAcc (s : State) (w : Width) (hi lo : BitVec w.bits) :
    (s.setWideAcc w hi lo).readReg w 0 = lo := by
  cases w with
  | byte => exact (congrArg (byteOf false) (State.reg_setReg_same s .ax _)).trans (byteOf_false_append hi lo)
  | word => exact (State.reg_setReg_other _ hi (by decide)).trans (State.reg_setReg_same s .ax lo)

@[simp] theorem State.setWideAcc_IP (s : State) (w : Width) (hi lo : BitVec w.bits) : (s.setWideAcc w hi lo).IP = s.IP := by
  cases w <;> rfl

@[simp] theorem State.setWideAcc_flags (s : State) (w : Width) (hi lo : BitVec w.bits) :
    (s.setWideAcc w hi lo).flags = s.flags := by
  cases w <;> rfl

/-- An update of the accumulator and of status flags changes nothing else. -/
theorem frame_setWideAcc_setFlags (s : State) (w : Width) (hi lo : BitVec w.bits) {f : Flags}
    (hf : ∀ x, x ∉ statusFlags → f.get x = s.flags.get x) :
    Frame s ((s.setWideAcc w hi lo).setFlags f) (accBytes w) statusFlags := by
  have hacc : Frame s (s.setWideAcc w hi lo) (accBytes w) [] := by
    cases w with
    | byte => exact frame_setReg_bytes s .ax _
    | word => exact frame_setReg_setReg s .ax .dx lo hi
  rw [← State.setWideAcc_flags s w hi lo] at hf
  exact (hacc.trans (frame_setFlags hf)).mono (by simp) (by simp)

/-! ### Products -/

theorem toNat_append_eq_add {m : Nat} (a : BitVec m) (b : BitVec n) : (a ++ b).toNat = a.toNat * 2 ^ n + b.toNat := by
  rw [BitVec.toNat_append, ← Nat.shiftLeft_add_eq_or_of_lt b.isLt, Nat.shiftLeft_eq]

/-- A number modulo `b²` from its two low digits to the base `b`. -/
theorem emod_mul_self_eq {b : Int} (hb : 0 < b) (p : Int) : p % (b * b) = p / b % b * b + p % b := by
  have hhi := Int.emod_nonneg (p / b) hb.ne'
  have hhi_lt := Int.emod_lt_of_pos (p / b) hb
  have hlo := Int.emod_nonneg p hb.ne'
  have hlo_lt := Int.emod_lt_of_pos p hb
  have hp : p = p / b % b * b + p % b + b * b * (p / b / b) := by
    linear_combination -(Int.mul_ediv_add_emod p b) - b * (Int.mul_ediv_add_emod (p / b) b)
  conv_lhs => rw [hp, Int.add_mul_emod_self_left]
  exact Int.emod_eq_of_lt (by positivity) (by nlinarith)

/-- The two halves of a product make up the product, as an integer modulo the double width. -/
theorem productHigh_append_productLow (n : Nat) (p : Int) :
    productHigh n p ++ productLow n p = BitVec.ofInt (n + n) p := by
  have hb : (0 : Int) < 2 ^ n := by positivity
  have hhi := Int.emod_nonneg (p / 2 ^ n) hb.ne'
  have hlo := Int.emod_nonneg p hb.ne'
  have hp := emod_mul_self_eq hb p
  have hpos := Int.emod_nonneg p (mul_pos hb hb).ne'
  refine BitVec.eq_of_toNat_eq (Int.natCast_inj.1 ?_)
  simp only [toNat_append_eq_add, productHigh, productLow, BitVec.toNat_ofInt]
  push_cast
  rw [pow_add, Int.toNat_of_nonneg hhi, Int.toNat_of_nonneg hlo, Int.toNat_of_nonneg hpos, hp]

/-- The product of two `n`-bit numbers fits `2 * n` bits. -/
theorem toNat_ofInt_mul (a b : BitVec n) : (BitVec.ofInt (n + n) (a.toNat * b.toNat : Nat)).toNat = a.toNat * b.toNat := by
  rw [BitVec.ofInt_natCast, BitVec.toNat_ofNat, Nat.pow_add]
  exact Nat.mod_eq_of_lt (Nat.mul_lt_mul'' a.isLt b.isLt)

theorem toInt_ofInt_mul (hn : 1 < n) (a b : BitVec n) : (BitVec.ofInt (n + n) (a.toInt * b.toInt)).toInt = a.toInt * b.toInt := by
  have hlo := BitVec.le_toInt_mul_toInt (x := a) (y := b)
  have hhi := BitVec.toInt_mul_toInt_le (x := a) (y := b)
  have hpow : (2 : Int) ^ (n + n - 1) = 2 * 2 ^ (n * 2 - 2) := by
    rw [← pow_succ']
    congr 1
    omega
  have hpos : (0 : Int) < 2 ^ (n * 2 - 2) := by positivity
  exact BitVec.toInt_ofInt_eq_self (by omega) (by omega) (by omega)

theorem productHigh_ne_zero (a b : BitVec n) :
    (productHigh n (a.toNat * b.toNat : Nat) != 0) = decide (2 ^ n ≤ a.toNat * b.toNat) := by
  have hlt : a.toNat * b.toNat / 2 ^ n < 2 ^ n :=
    Nat.div_lt_of_lt_mul (Nat.mul_lt_mul'' a.isLt b.isLt)
  have hhigh : productHigh n (a.toNat * b.toNat : Nat) = BitVec.ofNat n (a.toNat * b.toNat / 2 ^ n) :=
    BitVec.ofInt_natCast _ _
  rw [Bool.eq_iff_iff, bne_iff_ne, decide_eq_true_iff, hhigh, BitVec.toNat_ne, BitVec.toNat_ofNat, Nat.mod_eq_of_lt hlt]
  simp [Nat.div_eq_zero_iff]

/-! ### Updates of the accumulator -/

theorem runsTo_setWideAcc {w : Width} {hi lo : BitVec w.bits} {f : Flags}
    (h : exec i s = ((s.setWideAcc w hi lo).setFlags f).advance len) (hf : ∀ x, x ∉ statusFlags → f.get x = s.flags.get x) :
    RunsTo i s len fun t =>
      t.accHigh w = hi ∧ t.readReg w 0 = lo ∧ t.flags = f ∧ Frame s t (accBytes w) statusFlags := by
  have hhi := s.accHigh_setWideAcc w hi lo
  have hlo := s.accLow_setWideAcc w hi lo
  have hfr := frame_setWideAcc_setFlags s w hi lo hf
  refine runsTo_advance h (s.setWideAcc_IP w hi lo) ⟨?_, ?_, rfl, hfr⟩ fun u v hu => ?_
  · cases w <;> exact hhi
  · cases w <;> exact hlo
  · cases w <;> exact hu

theorem runsTo_multiply {w : Width} {p : Int} {high : Bool} (h : exec i s = s.multiply w p high len) :
    RunsTo i s len fun t =>
      t.wideAcc w = BitVec.ofInt (w.bits + w.bits) p ∧ t.flags.CF = high ∧ t.flags.OF = t.flags.CF ∧
        Frame s t (accBytes w) statusFlags := by
  refine (runsTo_setWideAcc h (Flags.get_of_not_mem_statusFlags rfl rfl rfl)).mono ?_
  rintro t ⟨hhi, hlo, hflags, hframe⟩
  rw [State.wideAcc_eq_append, hhi, hlo, productHigh_append_productLow, hflags]
  exact ⟨rfl, rfl, rfl, hframe⟩

theorem runsTo_multiplyUnsigned {w : Width} {m : BitVec w.bits} (h : exec i s = s.multiplyUnsigned w m len) :
    RunsTo i s len fun t =>
      (t.wideAcc w).toNat = (s.readReg w 0).toNat * m.toNat ∧
        t.flags.CF = decide (2 ^ w.bits ≤ (s.readReg w 0).toNat * m.toNat) ∧ t.flags.OF = t.flags.CF ∧
        Frame s t (accBytes w) statusFlags := by
  refine (runsTo_multiply h).mono ?_
  rintro t ⟨hacc, hcf, hof⟩
  exact ⟨by rw [hacc, toNat_ofInt_mul], by rw [hcf, productHigh_ne_zero], hof⟩

theorem runsTo_multiplySigned {w : Width} {m : BitVec w.bits} (h : exec i s = s.multiplySigned w m len) :
    RunsTo i s len fun t =>
      (t.wideAcc w).toInt = (s.readReg w 0).toInt * m.toInt ∧
        t.flags.CF = decide (¬(-2 ^ (w.bits - 1) ≤ (s.readReg w 0).toInt * m.toInt ∧
          (s.readReg w 0).toInt * m.toInt ≤ 2 ^ (w.bits - 1) - 1)) ∧
        t.flags.OF = t.flags.CF ∧ Frame s t (accBytes w) statusFlags := by
  have hw : 1 < w.bits := Nat.lt_trans (by decide) (four_lt_bits w)
  refine (runsTo_multiply h).mono ?_
  rintro t ⟨hacc, hcf, hrest⟩
  exact ⟨by rw [hacc, toInt_ofInt_mul hw], hcf.trans decide_not.symm, hrest⟩

/-! ### Divides (R206, R207) -/

theorem toNat_ne_zero {v : BitVec n} (hv : v ≠ 0) : v.toNat ≠ 0 := by
  simpa using BitVec.toNat_ne.1 hv

theorem toInt_ne_zero {v : BitVec n} (hv : v ≠ 0) : v.toInt ≠ 0 := by
  simpa using BitVec.toInt_ne.2 hv

theorem State.divideUnsigned_of_fits {w : Width} {v : BitVec w.bits} (hv : v ≠ 0)
    (hq : (s.wideAcc w).toNat / v.toNat < 2 ^ w.bits) :
    s.divideUnsigned w v len = s.divided w (BitVec.ofNat w.bits ((s.wideAcc w).toNat / v.toNat))
      (BitVec.ofNat w.bits ((s.wideAcc w).toNat % v.toNat)) len := by
  rw [State.divideUnsigned, if_neg (toNat_ne_zero hv), if_neg hq.not_ge]

theorem State.divideSigned_of_fits {w : Width} {v : BitVec w.bits} (hv : v ≠ 0)
    (hq : fitsSigned w.bits ((s.wideAcc w).toInt.tdiv v.toInt) = true) :
    s.divideSigned w v len = s.divided w (BitVec.ofInt w.bits ((s.wideAcc w).toInt.tdiv v.toInt))
      (BitVec.ofInt w.bits ((s.wideAcc w).toInt.tmod v.toInt)) len := by
  rw [State.divideSigned, if_neg (toInt_ne_zero hv), if_neg (by simp [hq]), Int.tmod_def, Int.mul_comm v.toInt]

theorem toInt_ofInt_of_fitsSigned (hn : 0 < n) {q : Int} (hq : fitsSigned n q = true) : (BitVec.ofInt n q).toInt = q := by
  obtain ⟨hlo, hhi⟩ := of_decide_eq_true hq
  exact BitVec.toInt_ofInt_eq_self hn hlo (by omega)

/-- A remainder of a truncating division is smaller than the divisor in absolute value. -/
theorem fitsSigned_tmod (x : Int) {v : BitVec n} (hv : v ≠ 0) : fitsSigned n (x.tmod v.toInt) = true := by
  have hr : (x.tmod v.toInt).natAbs < v.toInt.natAbs := by
    rw [Int.natAbs_tmod]
    exact Nat.mod_lt _ (Int.natAbs_pos.2 (toInt_ne_zero hv))
  have hlo := v.le_toInt
  have hhi := v.toInt_le
  exact decide_eq_true (by omega)

theorem runsTo_divided {w : Width} {q r : BitVec w.bits} (h : exec i s = s.divided w q r len) :
    RunsTo i s len fun t => t.accHigh w = r ∧ t.readReg w 0 = q ∧ Frame s t (accBytes w) statusFlags := by
  refine (runsTo_setWideAcc h (Flags.get_of_not_mem_statusFlags rfl rfl rfl)).mono ?_
  rintro t ⟨hhi, hlo, -, hframe⟩
  exact ⟨hhi, hlo, hframe⟩

theorem runsTo_divideUnsigned {w : Width} {v : BitVec w.bits} (h : exec i s = s.divideUnsigned w v len) (hv : v ≠ 0)
    (hq : (s.wideAcc w).toNat / v.toNat < 2 ^ w.bits) :
    RunsTo i s len fun t =>
      (s.wideAcc w).toNat = (t.readReg w 0).toNat * v.toNat + (t.accHigh w).toNat ∧ (t.accHigh w).toNat < v.toNat ∧
        Frame s t (accBytes w) statusFlags := by
  have hr : (s.wideAcc w).toNat % v.toNat < v.toNat := Nat.mod_lt _ (Nat.pos_of_ne_zero (toNat_ne_zero hv))
  refine (runsTo_divided (h.trans (State.divideUnsigned_of_fits hv hq))).mono ?_
  rintro t ⟨hhi, hlo, hframe⟩
  rw [hhi, hlo, BitVec.toNat_ofNat, BitVec.toNat_ofNat, Nat.mod_eq_of_lt hq, Nat.mod_eq_of_lt (hr.trans v.isLt)]
  exact ⟨(Nat.div_add_mod' _ _).symm, hr, hframe⟩

theorem runsTo_divideSigned {w : Width} {v : BitVec w.bits} (h : exec i s = s.divideSigned w v len) (hv : v ≠ 0)
    (hq : fitsSigned w.bits ((s.wideAcc w).toInt.tdiv v.toInt) = true) :
    RunsTo i s len fun t =>
      (t.readReg w 0).toInt = (s.wideAcc w).toInt.tdiv v.toInt ∧ (t.accHigh w).toInt = (s.wideAcc w).toInt.tmod v.toInt ∧
        Frame s t (accBytes w) statusFlags := by
  have hw : 0 < w.bits := Nat.zero_lt_of_lt (four_lt_bits w)
  refine (runsTo_divided (h.trans (State.divideSigned_of_fits hv hq))).mono ?_
  rintro t ⟨hhi, hlo, hframe⟩
  rw [hhi, hlo, toInt_ofInt_of_fitsSigned hw hq, toInt_ofInt_of_fitsSigned hw (fitsSigned_tmod _ hv)]
  exact ⟨rfl, rfl, hframe⟩

end Sys2Proof.Machine

open Sys2Proof Sys2Proof.Machine

/-- Settles O48: at each width the accumulator holds the product modulo the double width, which no product exceeds. -/
theorem multiplies : Obligations.Multiplies := by
  unfold Obligations.Multiplies
  rintro s rm a b x y rfl rfl rfl rfl
  refine ⟨runsTo_multiplyUnsigned (w := .byte) rfl, (runsTo_multiplyUnsigned (w := .word) rfl).mono ?_,
    runsTo_multiplySigned (w := .byte) rfl, runsTo_multiplySigned (w := .word) rfl⟩
  rintro t ⟨hacc, hrest⟩
  exact ⟨(toNat_append_eq_add (t.reg .dx) (t.reg .ax)).symm.trans hacc, hrest⟩

/-- Settles O49: where the divide completes, the halves of the accumulator hold quotient and remainder, which fit. -/
theorem divides : Obligations.Divides := by
  unfold Obligations.Divides
  rintro s rm v y x n rfl rfl rfl rfl
  exact ⟨runsTo_divideUnsigned (w := .byte) rfl, runsTo_divideUnsigned (w := .word) rfl,
    fun hv hq => runsTo_divideSigned (w := .byte) rfl hv (decide_eq_true hq),
    fun hv hq => runsTo_divideSigned (w := .word) rfl hv (decide_eq_true hq)⟩

end

section
/-! PROOFS. The two-operand operations in all their forms (43_alu R220 to R230). -/

namespace Sys2Proof.Machine

variable {i : Instr} {s : State} {len n : Nat}

/-- Each operation sets the flags of its policy and no other (R221, R222). -/
theorem aluFlags_get_other (op : AluOp) (d e : BitVec n) (f : Flags) (x : Flag) (hx : x ∉ aluFlagList op) :
    (aluFlags op d e f).get x = f.get x := by
  cases op with
  | add | adc | sbb | sub | cmp => exact f.get_arith_other _ _ _ _ x hx
  | or | and | xor => exact f.get_logic_other _ x hx

theorem aluStores_of_ne_cmp {op : AluOp} (h : op ≠ .cmp) : aluStores op = true := by
  cases op with
  | cmp => exact absurd rfl h
  | _ => rfl

/-- A meaning that is the common operation on a location and a value read before. -/
theorem aluRuns_alu {op : AluOp} {w : Width} {dst : Loc} {e : BitVec w.bits} (hm : s.mem.wf memSize = true)
    (h : exec i s = s.alu op w dst (s.readLoc w dst) e len) : AluRuns i s op w dst e len := by
  have hother := aluFlags_get_other op (s.readLoc w dst) e s.flags
  refine ⟨fun hop => ?_, ?_⟩
  · rw [State.alu, if_pos (aluStores_of_ne_cmp hop), State.storeThenNext] at h
    exact storesTo_writeLoc (g := id) h rfl (fun _ => rfl) fun hc => storesAndFlags_storeLast hm hc hother
  · rintro rfl
    exact flagsOnly_setFlags h hother

/-- The common operation on a register stores without a refusal. -/
theorem State.alu_reg (s : State) {op : AluOp} (hop : aluStores op = true) (w : Width) (r : RegNum) (d e : BitVec w.bits)
    (len : Nat) :
    s.alu op w (.reg r) d e len =
      ((s.setFlags (aluFlags op d e s.flags)).writeReg w r (aluValue op d e s.flags.CF)).advance len := by
  rw [State.alu, if_pos hop, State.storeThenNext, State.writeLoc_of_canStore rfl, andThen_next, State.putLoc]

section

variable (op : AluOp) (w : Width) (d : Direction) (reg : RegNum) (rm : RM) (imm8 : Byte) (imm16 : Word) (s : State)

theorem exec_aluRmR : exec (.aluRmR op w d reg rm) s = s.aluRmR op w d reg rm := by cases op <;> rfl

theorem exec_aluAlImm8 : exec (.aluAlImm8 op imm8) s = s.aluAlImm8 op imm8 := by cases op <;> rfl

theorem exec_aluAxImm16 : exec (.aluAxImm16 op imm16) s = s.aluAxImm16 op imm16 := by cases op <;> rfl

theorem exec_aluRm8Imm8 (op82 : Bool) : exec (.aluRm8Imm8 op op82 rm imm8) s = s.aluRm8Imm8 op rm imm8 := by cases op <;> rfl

theorem exec_aluRm16Imm16 : exec (.aluRm16Imm16 op rm imm16) s = s.aluRm16Imm16 op rm imm16 := by cases op <;> rfl

theorem exec_aluRm16Simm8 : exec (.aluRm16Simm8 op rm imm8) s = s.aluRm16Simm8 op rm imm8 := by cases op <;> rfl

end

end Sys2Proof.Machine

open Sys2Proof Sys2Proof.Machine

/-- Settles O43: each form is the common operation on the location and the value of its operands. -/
theorem twoOperandForms : Obligations.TwoOperandForms := by
  unfold Obligations.TwoOperandForms
  intro s op w d op82 reg rm imm8 imm16 hm
  refine ⟨?_, ?_, aluRuns_alu hm (exec_aluAlImm8 op imm8 s), aluRuns_alu hm (exec_aluAxImm16 op imm16 s),
    aluRuns_alu hm (exec_aluRm8Imm8 op rm imm8 s op82), aluRuns_alu hm (exec_aluRm16Imm16 op rm imm16 s),
    aluRuns_alu hm (exec_aluRm16Simm8 op rm imm8 s)⟩
  · rintro rfl
    exact aluRuns_alu hm (exec_aluRmR op w .toRm reg rm s)
  · rintro rfl
    exact aluRuns_alu hm (exec_aluRmR op w .toReg reg rm s)

end

section
/-! PROOFS. Sums and differences with a carry: the results and the flags of the two-operand operations on exact integers
(43_alu R221 to R230), and the order of its operands that `CMP` leaves in the flags (R233). -/

namespace Sys2Proof.Machine

variable {i : Instr} {s : State} {len n : Nat}

/-! ### Sums and differences with a carry -/

/-- The exact sum of `d`, `e` and the carry in `b` is `r` with the carry out `c`. Read backwards, the difference of `r` and `e` with
the borrow in `b` is `d` with the borrow out `c`. -/
def CarrySum (d e r : BitVec n) (b c : Bool) : Prop := d.toNat + e.toNat + b.toNat = r.toNat + 2 ^ n * c.toNat

/-- A number below `2 * m` from its remainder and its carry. -/
theorem mod_add_carry {m u : Nat} (hu : u < 2 * m) : u % m + m * (decide (m ≤ u)).toNat = u := by
  by_cases h : m ≤ u
  · rw [decide_eq_true h, Nat.mod_eq_sub_mod h, Nat.mod_eq_of_lt (by omega), Bool.toNat_true]
    omega
  · rw [decide_eq_false h, Nat.mod_eq_of_lt (Nat.lt_of_not_le h)]
    rfl

theorem add_add_lt_two_mul {m x y : Nat} (hx : x < m) (hy : y < m) (b : Bool) : x + y + b.toNat < 2 * m := by
  have hb := b.toNat_le
  omega

theorem carrySum_add (d e : BitVec n) (b : Bool) :
    CarrySum d e (d + e + BitVec.ofNat n b.toNat) b (decide (2 ^ n ≤ d.toNat + e.toNat + b.toNat)) := by
  have hr : (d + e + BitVec.ofNat n b.toNat).toNat = (d.toNat + e.toNat + b.toNat) % 2 ^ n := by simp
  rw [CarrySum, hr]
  exact (mod_add_carry (add_add_lt_two_mul d.isLt e.isLt b)).symm

/-- The borrow out says that the difference is below 0. -/
theorem CarrySum.borrow_eq {d e r : BitVec n} {b c : Bool} (h : CarrySum r e d b c) : c = decide (d.toNat < e.toNat + b.toNat) := by
  have hd := d.isLt
  have hr := r.isLt
  unfold CarrySum at h
  cases c with
  | false =>
    rw [Bool.toNat_false, Nat.mul_zero] at h
    exact (decide_eq_false (by omega)).symm
  | true =>
    rw [Bool.toNat_true, Nat.mul_one] at h
    exact (decide_eq_true (by omega)).symm

theorem carrySum_sub (d e : BitVec n) (b : Bool) :
    CarrySum (d - e - BitVec.ofNat n b.toNat) e d b (decide (d.toNat < e.toNat + b.toNat)) := by
  have h := carrySum_add (d - e - BitVec.ofNat n b.toNat) e b
  rw [add_right_comm, sub_add_cancel, sub_add_cancel] at h
  rwa [← h.borrow_eq]

variable {d e r : BitVec n} {b c : Bool}

theorem CarrySum.toNat_mod (h : CarrySum d e r b c) {m : Nat} (hm : m ∣ 2 ^ n) :
    (d.toNat + e.toNat + b.toNat) % m = r.toNat % m := by
  rw [h, Nat.add_mod, Nat.mod_eq_zero_of_dvd (hm.mul_right _), Nat.add_zero, Nat.mod_mod]

theorem CarrySum.eq_add (h : CarrySum d e r b c) : r = d + e + (BitVec.ofBool b).setWidth n := by
  refine BitVec.eq_of_toNat_eq ?_
  rw [← Nat.mod_eq_of_lt r.isLt, ← h.toNat_mod (dvd_refl _)]
  simp

/-- Bit `i` of the exclusive or of the operands and their sum is the carry into bit `i` (R221). -/
theorem CarrySum.getLsbD_xor (h : CarrySum d e r b c) {i : Nat} (hi : i < n) :
    (d ^^^ e ^^^ r).getLsbD i = decide (2 ^ i ≤ d.toNat % 2 ^ i + e.toNat % 2 ^ i + b.toNat) := by
  have hcarry : (d ^^^ e ^^^ r).getLsbD i = BitVec.carry i d e b := by
    rw [h.eq_add, BitVec.getLsbD_xor, BitVec.getLsbD_xor, BitVec.getLsbD_add_add_bool hi]
    cases d.getLsbD i <;> cases e.getLsbD i <;> simp
  exact hcarry

theorem two_pow_eq_two_mul (hn : 0 < n) : 2 ^ n = 2 * 2 ^ (n - 1) := by
  rw [← Nat.pow_succ', Nat.succ_eq_add_one, Nat.sub_add_cancel hn]

theorem toNat_mod_add_msb (hn : 0 < n) (x : BitVec n) : x.toNat % 2 ^ (n - 1) + 2 ^ (n - 1) * x.msb.toNat = x.toNat := by
  rw [BitVec.msb_eq_decide]
  exact mod_add_carry (two_pow_eq_two_mul hn ▸ x.isLt)

theorem toInt_add_msb (x : BitVec n) : x.toInt + 2 ^ n * x.msb.toNat = x.toNat := by
  rw [BitVec.toInt_eq_msb_cond]
  cases x.msb <;> simp

/-- The bits below the top bit add up to those of the result and the carry into the top bit. -/
theorem CarrySum.add_below_msb (h : CarrySum d e r b c) (hn : 0 < n) :
    d.toNat % 2 ^ (n - 1) + e.toNat % 2 ^ (n - 1) + b.toNat =
      r.toNat % 2 ^ (n - 1) + 2 ^ (n - 1) * (d ^^^ e ^^^ r).msb.toNat := by
  have hpos := Nat.two_pow_pos (n - 1)
  have hmod : (d.toNat % 2 ^ (n - 1) + e.toNat % 2 ^ (n - 1) + b.toNat) % 2 ^ (n - 1) = r.toNat % 2 ^ (n - 1) := by
    rw [← h.toNat_mod (pow_dvd_pow 2 (Nat.sub_le n 1))]
    simp [Nat.add_mod]
  rw [BitVec.msb_eq_getLsbD_last, h.getLsbD_xor (Nat.sub_one_lt_of_lt hn), ← hmod]
  exact (mod_add_carry (add_add_lt_two_mul (Nat.mod_lt _ hpos) (Nat.mod_lt _ hpos) b)).symm

/-- The exact signed sum differs from the result by 2^n as often as the carries into and out of the top bit differ. -/
theorem CarrySum.toInt_add (h : CarrySum d e r b c) (hn : 0 < n) :
    d.toInt + e.toInt + b.toNat = r.toInt + 2 ^ n * ((d ^^^ e ^^^ r).msb.toNat - c.toNat) := by
  have hpow : (2 : Int) ^ n = 2 * 2 ^ (n - 1) := by exact_mod_cast two_pow_eq_two_mul hn
  have hsum : (d.toNat + e.toNat + b.toNat : Int) = r.toNat + 2 ^ n * c.toNat := by exact_mod_cast h
  have hlow := congrArg (Nat.cast (R := Int)) (h.add_below_msb hn)
  have hd := congrArg (Nat.cast (R := Int)) (toNat_mod_add_msb hn d)
  have he := congrArg (Nat.cast (R := Int)) (toNat_mod_add_msb hn e)
  have hr := congrArg (Nat.cast (R := Int)) (toNat_mod_add_msb hn r)
  push_cast at hlow hd he hr
  linear_combination toInt_add_msb d + toInt_add_msb e - toInt_add_msb r + 2 * (hlow - hd - he + hr) - hsum -
    hpow * (d.msb.toNat + e.msb.toNat - r.msb.toNat + (d ^^^ e ^^^ r).msb.toNat)

/-- An integer that differs from a signed number by 2^n or not at all is in range exactly if not at all. -/
theorem fitsSigned_toInt_add (hn : 0 < n) (x : BitVec n) (k c : Bool) :
    fitsSigned n (x.toInt + 2 ^ n * (k.toNat - c.toNat)) = !(c ^^ k) := by
  have hpow : (2 : Int) ^ n = 2 * 2 ^ (n - 1) := by exact_mod_cast two_pow_eq_two_mul hn
  have hlo := x.le_toInt
  have hhi := x.toInt_lt
  cases k <;> cases c <;> simp [fitsSigned] <;> omega

/-! ### The policy of the arithmetic flags (R221) -/

/-- Where the result is the first operand, the carries into and out of the top bit are equal. -/
theorem CarrySum.msb_eq_of_result_eq (h : CarrySum d e d b c) (hn : 0 < n) : e.msb = c := by
  have hpow := two_pow_eq_two_mul hn
  have hb := b.toNat_le
  have he := e.isLt
  unfold CarrySum at h
  rw [BitVec.msb_eq_decide]
  cases c with
  | false =>
    rw [Bool.toNat_false] at h
    exact decide_eq_false (by omega)
  | true =>
    rw [Bool.toNat_true] at h
    exact decide_eq_true (by omega)

variable (f : Flags)

/-- So the exception that R221 makes there is none: `OF` is the exclusive or of these carries in every case. -/
theorem CarrySum.arith_OF_eq_xor (h : CarrySum d e r b c) (hn : 0 < n) : (f.arith d e r c).OF = (c ^^ (d ^^^ e ^^^ r).msb) := by
  by_cases hr : r = d
  · subst hr
    simp [Flags.arith, h.msb_eq_of_result_eq hn]
  · exact if_neg hr

theorem CarrySum.arith_OF (h : CarrySum d e r b c) (hn : 0 < n) :
    (f.arith d e r c).OF = !fitsSigned n (d.toInt + e.toInt + b.toNat) := by
  rw [h.arith_OF_eq_xor f hn, h.toInt_add hn, fitsSigned_toInt_add hn, Bool.not_not]

theorem CarrySum.arith_AF (h : CarrySum d e r b c) (hn : 4 < n) :
    (f.arith d e r c).AF = decide (16 ≤ d.toNat % 16 + e.toNat % 16 + b.toNat) :=
  h.getLsbD_xor hn

/-! A difference is a sum read backwards: with the first operand and the result in each other's places `AF` and `OF` are the
same. -/

theorem xor_xor_swap (d e r : BitVec n) : d ^^^ e ^^^ r = r ^^^ e ^^^ d := by ac_rfl

theorem Flags.arith_swap_AF : (f.arith d e r c).AF = (f.arith r e d c).AF := congrArg (BitVec.getLsbD · 4) (xor_xor_swap d e r)

theorem Flags.arith_swap_OF : (f.arith d e r c).OF = (f.arith r e d c).OF :=
  if_congr eq_comm rfl (congrArg (fun x => c ^^ x.msb) (xor_xor_swap d e r))

theorem CarrySum.arith_sub_OF_eq_xor (h : CarrySum r e d b c) (hn : 0 < n) :
    (f.arith d e r c).OF = (c ^^ (r ^^^ e ^^^ d).msb) :=
  f.arith_swap_OF.trans (h.arith_OF_eq_xor f hn)

theorem CarrySum.arith_sub_OF (h : CarrySum r e d b c) (hn : 0 < n) :
    (f.arith d e r c).OF = !fitsSigned n (d.toInt - e.toInt - b.toNat) := by
  have hdiff : d.toInt - e.toInt - b.toNat = r.toInt + 2 ^ n * (c.toNat - (r ^^^ e ^^^ d).msb.toNat) := by
    linear_combination -h.toInt_add hn
  rw [h.arith_sub_OF_eq_xor f hn, hdiff, fitsSigned_toInt_add hn, Bool.not_not, Bool.xor_comm]

theorem CarrySum.arith_sub_AF (h : CarrySum r e d b c) (hn : 4 < n) :
    (f.arith d e r c).AF = decide (d.toNat % 16 < e.toNat % 16 + b.toNat) := by
  have hmod := h.toNat_mod (pow_dvd_pow 2 hn.le)
  have hb := b.toNat_le
  rw [f.arith_swap_AF, h.arith_AF f hn, decide_eq_decide]
  omega

/-! ### Results -/

theorem carryIn_eq_toNat (b : Bool) : carryIn b = b.toNat := by cases b <;> rfl

theorem toInt_sub_sub (d e : BitVec n) (b : Bool) :
    (d - e - BitVec.ofNat n b.toNat).toInt = (d.toInt - e.toInt - b.toNat).bmod (2 ^ n) := by
  rw [← BitVec.ofInt_natCast, BitVec.toInt_sub, BitVec.toInt_sub, BitVec.toInt_ofInt, Int.bmod_sub_bmod, Int.sub_bmod_bmod]

/-- Result and flags of a sum with a carry in `b`, on exact integers (R223, R225). -/
theorem arith_add_rules (hn : 4 < n) (hr : r = d + e + BitVec.ofNat n b.toNat)
    (hc : c = decide (2 ^ n ≤ d.toNat + e.toNat + b.toNat)) :
    r.toNat = (d.toNat + e.toNat + b.toNat) % 2 ^ n ∧
      (f.arith d e r c).CF = decide (2 ^ n ≤ d.toNat + e.toNat + b.toNat) ∧
      (f.arith d e r c).OF =
        decide (¬(-2 ^ (n - 1) ≤ d.toInt + e.toInt + b.toNat ∧ d.toInt + e.toInt + b.toNat ≤ 2 ^ (n - 1) - 1)) ∧
      (f.arith d e r c).AF = decide (16 ≤ d.toNat % 16 + e.toNat % 16 + b.toNat) := by
  have h : CarrySum d e r b c := hr ▸ hc ▸ carrySum_add d e b
  refine ⟨?_, hc, (h.arith_OF f (Nat.zero_lt_of_lt hn)).trans decide_not.symm, h.arith_AF f hn⟩
  rw [h.toNat_mod (dvd_refl _), Nat.mod_eq_of_lt r.isLt]

/-- Result and flags of a difference with a borrow in `b`, on exact integers (R226, R228, R230). -/
theorem arith_sub_rules (hn : 4 < n) (hr : r = d - e - BitVec.ofNat n b.toNat)
    (hc : c = decide (d.toNat < e.toNat + b.toNat)) :
    r.toInt = (d.toInt - e.toInt - b.toNat).bmod (2 ^ n) ∧
      (f.arith d e r c).CF = decide (d.toNat < e.toNat + b.toNat) ∧
      (f.arith d e r c).OF =
        decide (¬(-2 ^ (n - 1) ≤ d.toInt - e.toInt - b.toNat ∧ d.toInt - e.toInt - b.toNat ≤ 2 ^ (n - 1) - 1)) ∧
      (f.arith d e r c).AF = decide (d.toNat % 16 < e.toNat % 16 + b.toNat) := by
  have h : CarrySum r e d b c := hr ▸ hc ▸ carrySum_sub d e b
  exact ⟨hr ▸ toInt_sub_sub d e b, hc, (h.arith_sub_OF f (Nat.zero_lt_of_lt hn)).trans decide_not.symm, h.arith_sub_AF f hn⟩

/-! ### The order of two operands after `CMP` (R233) -/

theorem aluFlags_cmp_ZF (d e : BitVec n) : (aluFlags .cmp d e f).ZF = decide (d = e) := by
  show (d - e == 0#n) = decide (d = e)
  rw [beq_eq_decide, decide_eq_decide]
  exact sub_eq_zero

theorem aluFlags_cmp_SF_xor_OF (hn : 0 < n) (d e : BitVec n) :
    ((aluFlags .cmp d e f).SF ^^ (aluFlags .cmp d e f).OF) = decide (d.toInt < e.toInt) := by
  have h : CarrySum (d - e) e d false (d.ult e) := by simpa [BitVec.ult_eq_decide] using carrySum_sub d e false
  have hOF : (aluFlags .cmp d e f).OF = (d.ult e ^^ (d - e ^^^ e ^^^ d).msb) := h.arith_sub_OF_eq_xor f hn
  have hSF : (aluFlags .cmp d e f).SF = (d - e).msb := rfl
  rw [hOF, hSF, ← BitVec.slt_eq_decide, BitVec.slt_eq_ult, BitVec.msb_xor, BitVec.msb_xor]
  cases (d - e).msb <;> cases e.msb <;> cases d.msb <;> simp

/-- After a compare the condition of each jump is the order it is named after (40_cond_jump R134 to R139, R144 to R147). -/
theorem decidesOrder_cmp {w : Width} {l : Loc} {d e : BitVec w.bits} {rel : Byte} (h : exec i s = s.alu .cmp w l d e len) :
    DecidesOrder i s w d e len rel := by
  intro hfit
  obtain ⟨t, ht, -, hflags⟩ := (runsTo_advance (post := fun t => t.flags = aluFlags .cmp d e s.flags) h rfl rfl).1 hfit
  have hz : t.flags.ZF = decide (d = e) := hflags ▸ aluFlags_cmp_ZF s.flags d e
  have hc : t.flags.CF = decide (d.toNat < e.toNat) := by rw [hflags]; rfl
  have hlt : (t.flags.SF ^^ t.flags.OF) = decide (d.toInt < e.toInt) :=
    hflags ▸ aluFlags_cmp_SF_xor_OF s.flags (Nat.zero_lt_of_lt (four_lt_bits w)) d e
  have hl : t.flags.SF ≠ t.flags.OF ↔ d.toInt < e.toInt := by rw [← Bool.xor_iff_ne, hlt, decide_eq_true_iff]
  have hge : t.flags.SF = t.flags.OF ↔ e.toInt ≤ d.toInt := by rw [← not_lt, ← hl, not_not]
  have jump {p : Prop} (c : Cond) (hp : JumpCondition c t.flags ↔ p) : JumpsOn (.jcc c rel) t t p rel :=
    propext hp ▸ jumpsOn_jcc c rel t
  refine ⟨t, ht, jump .e ?_, jump .ne ?_, jump .b ?_, jump .ae ?_, jump .be ?_, jump .a ?_, jump .l hl, jump .ge hge,
    jump .le ?_, jump .g ?_⟩
  all_goals simp only [JumpCondition, hz, hc, hl, hge, decide_eq_true_eq, decide_eq_false_iff_not]
  · exact Nat.not_lt
  · rw [← BitVec.toNat_inj]
    omega
  · rw [← BitVec.toNat_inj]
    omega
  · rw [← BitVec.toInt_inj]
    omega
  · rw [← BitVec.toInt_inj]
    omega

end Sys2Proof.Machine

open Sys2Proof Sys2Proof.Machine

/-- Settles O27: the flags of a compare in the words of the conditions. -/
theorem jumpsAfterCompare : Obligations.JumpsAfterCompare := by
  unfold Obligations.JumpsAfterCompare
  intro s w op82 reg rm imm8 imm16 rel
  exact ⟨decidesOrder_cmp (exec_aluRmR .cmp w .toRm reg rm s), decidesOrder_cmp (exec_aluRmR .cmp w .toReg reg rm s),
    decidesOrder_cmp (exec_aluAlImm8 .cmp imm8 s), decidesOrder_cmp (exec_aluAxImm16 .cmp imm16 s),
    decidesOrder_cmp (exec_aluRm8Imm8 .cmp rm imm8 s op82), decidesOrder_cmp (exec_aluRm16Imm16 .cmp rm imm16 s),
    decidesOrder_cmp (exec_aluRm16Simm8 .cmp rm imm8 s)⟩

/-- Settles O44: with a carry or without, each result is an exact sum or difference, whose carries give `CF`, `OF` and `AF`. -/
theorem twoOperandRules : Obligations.TwoOperandRules := by
  unfold Obligations.TwoOperandRules
  rintro f w d e c rfl
  have hn := four_lt_bits w
  refine ⟨?add, ?adc, ?sbb, fun op hop => ?sub, fun i => ⟨BitVec.getLsbD_or, BitVec.getLsbD_and, BitVec.getLsbD_xor⟩,
    fun op hop => ?logic⟩
  case add => simpa [aluFlags, aluValue, aluCarry] using arith_add_rules f (d := d) (e := e) (b := false) hn rfl rfl
  case adc =>
    simp only [aluFlags, aluValue, aluCarry, carryIn_eq_toNat]
    exact arith_add_rules f hn rfl rfl
  case sbb =>
    simp only [aluFlags, aluValue, aluCarry, carryIn_eq_toNat]
    exact arith_sub_rules f hn rfl rfl
  case sub =>
    have h := arith_sub_rules f (d := d) (e := e) (b := false) hn rfl rfl
    obtain rfl | rfl : op = .sub ∨ op = .cmp := by simpa using hop
    · simpa [aluFlags, aluValue, aluCarry, BitVec.toInt_sub] using h
    · simpa [aluFlags, aluValue, aluCarry, BitVec.toInt_sub] using h
  case logic =>
    obtain rfl | rfl | rfl : op = .or ∨ op = .and ∨ op = .xor := by simpa using hop
    all_goals exact ⟨rfl, rfl, rfl⟩

end

section
/-! PROOFS. Packed decimal addition (43_alu R223, 47_bcd R341): `ADD AL, imm8`, then `DAA`. -/

namespace Sys2Proof.Machine

/-- Two decimal digits in a byte. -/
def packedDecimal (x : Nat) : Byte := BitVec.ofNat 8 (x / 10 * 16 + x % 10)

variable {x y : Nat}

theorem toNat_packedDecimal (hx : x < 100) : (packedDecimal x).toNat = x / 10 * 16 + x % 10 := by
  rw [packedDecimal, BitVec.toNat_ofNat]
  omega

theorem toNat_and_lowDigit (b : Byte) : (b &&& 0x0F).toNat = b.toNat % 16 := Nat.and_two_pow_sub_one_eq_mod b.toNat 4

section

variable (hx : x < 100) (hy : y < 100) (f : Flags)
include hx hy

/-- The low digits carry exactly if the low digit of the sum is adjusted. -/
theorem lowDigitAdjusts_add_packedDecimal :
    lowDigitAdjusts (packedDecimal x + packedDecimal y) (aluFlags .add (packedDecimal x) (packedDecimal y) f).AF =
      decide (10 ≤ x % 10 + y % 10) := by
  have hAF : (aluFlags .add (packedDecimal x) (packedDecimal y) f).AF =
      decide (16 ≤ (packedDecimal x).toNat % 16 + (packedDecimal y).toNat % 16) :=
    getLsbD_xor_add _ _ (by decide)
  rw [lowDigitAdjusts, hAF, toNat_and_lowDigit, BitVec.toNat_add, toNat_packedDecimal hx, toNat_packedDecimal hy,
    ← Bool.decide_or, decide_eq_decide]
  omega

/-- The high digit is adjusted exactly if the sum has a hundred. -/
theorem highDigitAdjusts_add_packedDecimal :
    highDigitAdjusts (packedDecimal x + packedDecimal y) (aluFlags .add (packedDecimal x) (packedDecimal y) f).CF =
      decide (100 ≤ x + y) := by
  have hCF : (aluFlags .add (packedDecimal x) (packedDecimal y) f).CF =
      decide (2 ^ 8 ≤ (packedDecimal x).toNat + (packedDecimal y).toNat) := rfl
  have hcarry (u : Nat) : (0x99 < u % 2 ^ 8 ∨ 2 ^ 8 ≤ u) ↔ 0x9A ≤ u := by omega
  rw [highDigitAdjusts, hCF, BitVec.toNat_add, toNat_packedDecimal hx, toNat_packedDecimal hy, ← Bool.decide_or,
    decide_eq_decide, hcarry]
  have htens : x / 10 + y / 10 ≤ 8 ∨ x / 10 + y / 10 = 9 ∨ 10 ≤ x / 10 + y / 10 := by omega
  omega

/-- `DAA` after `ADD` gives the decimal sum. -/
theorem daaValue_add_packedDecimal :
    daaValue (packedDecimal x + packedDecimal y) (aluFlags .add (packedDecimal x) (packedDecimal y) f).AF
      (aluFlags .add (packedDecimal x) (packedDecimal y) f).CF = packedDecimal ((x + y) % 100) := by
  refine BitVec.eq_of_toNat_eq ?_
  rw [toNat_packedDecimal (Nat.mod_lt _ (by decide)), daaValue, lowDigitAdjusts_add_packedDecimal hx hy,
    highDigitAdjusts_add_packedDecimal hx hy]
  by_cases hlow : 10 ≤ x % 10 + y % 10 <;> by_cases hhigh : 100 ≤ x + y
  all_goals
    simp only [hlow, hhigh, decide_true, decide_false, Bool.false_eq_true, if_true, if_false, BitVec.toNat_add,
      BitVec.ofNat_eq_ofNat, BitVec.toNat_ofNat, toNat_packedDecimal hx, toNat_packedDecimal hy]
    omega

end

theorem runsTo_addAlImm8 (s : State) (imm : Byte) :
    RunsTo (.addAlImm8 imm) s 2 fun t => t.AL = s.AL + imm ∧ t.flags = aluFlags .add s.AL imm s.flags := by
  have h : exec (.addAlImm8 imm) s = s.alu .add .byte (.reg 0) s.AL imm 2 := rfl
  refine runsTo_advance (h.trans (s.alu_reg rfl .byte 0 _ _ 2)) (State.writeReg_IP _ .byte 0 _) ⟨?_, rfl⟩
  exact State.readReg_writeReg_same _ .byte 0 _

theorem runsTo_daa (s : State) :
    RunsTo .daa s 1 fun t =>
      t.AL = daaValue s.AL s.flags.AF s.flags.CF ∧
        t.flags.CF = highDigitAdjusts s.AL s.flags.CF ∧ t.flags.ZF = (s.flags.setSZP t.AL).ZF := by
  have hAL := State.readReg_writeReg_same s .byte 0 (daaValue s.AL s.flags.AF s.flags.CF)
  have h : exec .daa s = ((s.setReg8 0 (daaValue s.AL s.flags.AF s.flags.CF)).setFlags
      (s.flags.decimal s.draws (daaValue s.AL s.flags.AF s.flags.CF) (lowDigitAdjusts s.AL s.flags.AF)
        (highDigitAdjusts s.AL s.flags.CF))).advance 1 := rfl
  exact runsTo_advance h rfl ⟨hAL, rfl, congrArg (fun r : Byte => r == 0) hAL.symm⟩

end Sys2Proof.Machine

open Sys2Proof Sys2Proof.Machine

/-- Settles O51: each digit of the sum is adjusted exactly if it carries in decimal. -/
theorem decimalAddition : Obligations.DecimalAddition := by
  unfold Obligations.DecimalAddition
  intro s x y hx hy hfit hal
  unfold State.Fits at hfit
  have hAL : s.AL = packedDecimal x := hal
  obtain ⟨t, hadd, hip, htAL, hflags⟩ := (runsTo_addAlImm8 s (packedDecimal y)).1 (by unfold State.Fits; omega)
  have hfit' : t.Fits 1 := by
    rw [State.Fits, hip, BitVec.toNat_add, BitVec.toNat_ofNat]
    omega
  obtain ⟨u, hdaa, -, huAL, hCF, hZF⟩ := (runsTo_daa t).1 hfit'
  rw [htAL, hflags, hAL] at huAL hCF
  rw [daaValue_add_packedDecimal hx hy] at huAL
  rw [highDigitAdjusts_add_packedDecimal hx hy] at hCF
  refine ⟨t, u, hadd, hdaa, ?_, hCF, ?_⟩
  · rw [huAL, packedDecimal, Nat.mod_mod_of_dvd _ (by decide)]
  · rw [hZF, Flags.setSZP_ZF, huAL, toNat_packedDecimal (Nat.mod_lt _ (by decide)), decide_eq_decide]
    omega

end

section
/-! PROOFS. The override and repeat bytes, and the start of a cycle (44_string_prefix R260 to R262). -/

open Sys2Proof Sys2Proof.Machine

/-- Settles O52: each byte sets its own counter and raises the other before `SetIP(next)`; the start of a cycle changes the two counters
and the draw. -/
theorem prefixInstructions : Obligations.PrefixInstructions := by
  unfold Obligations.PrefixInstructions
  intro s sr mode
  have lowered (n : Nat) : n - 1 = if n ≠ 0 then n - 1 else 0 := by split <;> omega
  refine ⟨?override, ?rep, lowered _, lowered _, Frame.refl _⟩
  case override =>
    exact jumpsTo_setIP (State.advance_eq { s with segOvrCnt := 2, segOvrReg := sr, repCnt := extendCount s.repCnt } 1)
  case rep =>
    exact jumpsTo_setIP (State.advance_eq { s with repCnt := 2, repMode := mode, segOvrCnt := extendCount s.segOvrCnt } 1)

end

section
/-! PROOFS. String elements (44_string_prefix R250, R251): the registers that a string instruction moves, and one iteration of
`MOVS`, `STOS` and `LODS` (R254 to R256). -/

namespace Sys2Proof.Machine

variable {i : Instr} {s t r : State} {w : Width}

/-! ### Ordinary memory -/

theorem readByte_of_plain_congr {a : Addr} (hp : cellAt a = .plain) (h : t.mem = s.mem) : t.readByte a = s.readByte a := by
  rw [State.readByte_of_plain hp, State.readByte_of_plain hp, h]

/-- What ordinary memory reads as depends on `mem` only. -/
theorem readMem_of_plain_congr {a : Addr} (hp : Plain w a) (h : t.mem = s.mem) : t.readMem w a = s.readMem w a := by
  cases w with
  | byte => exact readByte_of_plain_congr hp h
  | word => exact congrArg₂ (· ++ ·) (readByte_of_plain_congr hp.2 h) (readByte_of_plain_congr hp.1 h)

theorem holds_of_readMem_eq {a : Addr} {v : BitVec w.bits} (h : t.readMem w a = v) : Holds t w a v := by
  subst h
  cases w with
  | byte => exact fun _ _ => rfl
  | word => exact ⟨fun _ _ => (byteOf_false_append _ _).symm, fun _ _ => (byteOf_true_append _ _).symm⟩

theorem readMem_putMem_of_plain {a : Addr} (hm : s.mem.wf memSize = true) (hp : Plain w a) (v : BitVec w.bits) :
    (s.putMem w a v).readMem w a = v := by
  have h := holds_putMem hm (canStore_of_plain hp v)
  cases w with
  | byte => exact h (by simp [show cellAt a = .plain from hp]) (by simp)
  | word => exact readMem_of_holds hp h

/-! ### Indices -/

/-- `SI` after `k` elements. -/
def State.siAt (s : State) (w : Width) (k : Nat) : Word := s.reg .si + BitVec.ofNat 16 k * s.delta w

/-- `DI` after `k` elements. -/
def State.diAt (s : State) (w : Width) (k : Nat) : Word := s.reg .di + BitVec.ofNat 16 k * s.delta w

theorem add_mul_succ (x d : Word) (k : Nat) :
    x + BitVec.ofNat 16 (k + 1) * d = x + BitVec.ofNat 16 k * d + d := by
  rw [BitVec.ofNat_add, BitVec.add_mul, BitVec.one_mul, BitVec.add_assoc]

@[simp] theorem State.siAt_zero (s : State) (w : Width) : s.siAt w 0 = s.reg .si := by simp [State.siAt]

@[simp] theorem State.diAt_zero (s : State) (w : Width) : s.diAt w 0 = s.reg .di := by simp [State.diAt]

theorem State.siAt_succ (s : State) (w : Width) (k : Nat) : s.siAt w (k + 1) = s.siAt w k + s.delta w := add_mul_succ _ _ _

theorem State.diAt_succ (s : State) (w : Width) (k : Nat) : s.diAt w (k + 1) = s.diAt w k + s.delta w := add_mul_succ _ _ _

theorem State.srcElement_eq (s : State) (w : Width) : s.srcElement = s.srcAt w 0 :=
  congrArg (lin (s.segment .ds)) (s.siAt_zero w).symm

theorem State.dstElement_eq (s : State) (w : Width) : s.dstElement = s.dstAt w 0 :=
  congrArg (lin (s.reg .es)) (s.diAt_zero w).symm

theorem State.stepIndex_eq (s : State) (w : Width) (x : Word) : stepIndex s.flags.DF w x = x + s.delta w := by
  unfold stepIndex State.delta
  split
  · exact BitVec.sub_eq_add_neg _ _
  · rfl

theorem State.stepSI_eq (s : State) (w : Width) : s.stepSI w = s.setReg .si (s.reg .si + s.delta w) :=
  congrArg (s.setReg .si) (s.stepIndex_eq w _)

theorem State.stepDI_eq (s : State) (w : Width) : s.stepDI w = s.setReg .di (s.reg .di + s.delta w) :=
  congrArg (s.setReg .di) (s.stepIndex_eq w _)

/-! ### The registers that a string instruction moves -/

/-- `r` with other values of `CX`, `SI`, `DI` and another draw: the form of the states that a string instruction goes through. -/
def State.withIndices (r : State) (cx si di : Word) (draws : Nat) : State :=
  { ((r.setReg .cx cx).setReg .si si).setReg .di di with draws := draws }

section

variable (r : State) (w : Width) (c x y : Word) (d : Nat)

theorem State.withIndices_self : r.withIndices (r.reg .cx) (r.reg .si) (r.reg .di) r.draws = r := rfl

@[simp] theorem State.withIndices_mem : (r.withIndices c x y d).mem = r.mem := rfl

@[simp] theorem State.withIndices_draws : (r.withIndices c x y d).draws = d := rfl

@[simp] theorem State.withIndices_delta : (r.withIndices c x y d).delta w = r.delta w := rfl

@[simp] theorem State.reg_cx_withIndices : (r.withIndices c x y d).reg .cx = c := rfl

@[simp] theorem State.reg_si_withIndices : (r.withIndices c x y d).reg .si = x := rfl

@[simp] theorem State.reg_di_withIndices : (r.withIndices c x y d).reg .di = y := rfl

@[simp] theorem State.withIndices_setReg_cx (v : Word) :
    (r.withIndices c x y d).setReg .cx v = r.withIndices v x y d := rfl

@[simp] theorem State.withIndices_nextDraw : (r.withIndices c x y d).nextDraw = r.withIndices c x y (d + 1) := rfl

@[simp] theorem State.withIndices_srcElement : (r.withIndices c x y d).srcElement = lin (r.segment .ds) x := by
  have hseg (sr : SReg) : (r.withIndices c x y d).reg (Reg.ofSReg sr) = r.reg (Reg.ofSReg sr) := by cases sr <;> rfl
  have h : (r.withIndices c x y d).segment .ds = r.segment .ds := if_congr Iff.rfl (hseg _) (hseg _)
  exact congrArg (fun seg => lin seg x) h

@[simp] theorem State.withIndices_readAcc : (r.withIndices c x y d).readReg w 0 = r.readReg w 0 := by
  cases w <;> rfl

@[simp] theorem State.withIndices_writeAcc (v : BitVec w.bits) :
    (r.withIndices c x y d).writeReg w 0 v = (r.writeReg w 0 v).withIndices c x y d := by
  cases w <;> rfl

@[simp] theorem State.withIndices_withIndices (c' x' y' : Word) (d' : Nat) :
    (r.withIndices c x y d).withIndices c' x' y' d' = r.withIndices c' x' y' d' := rfl

theorem State.withIndices_putMem {a : Addr} (hp : Plain w a) (v : BitVec w.bits) :
    (r.withIndices c x y d).putMem w a v = (r.putMem w a v).withIndices c x y d := by
  cases w with
  | byte => simp only [State.putMem, State.putByte_plain hp]; rfl
  | word => simp only [State.putMem, State.putByte_plain hp.1, State.putByte_plain hp.2]; rfl

end

theorem Frame.trans_same {A : List Addr} {fl : List Flag} (h : Frame s r A fl) (k : Frame r t A fl) : Frame s t A fl :=
  (h.trans k).mono (by simp) (by simp)

/-- Only the bytes of those of `CX`, `SI`, `DI` change that are given another value. -/
theorem frame_withIndices {A : List Addr} {c x y : Word} (hc : c = r.reg .cx ∨ Reg.cx.bytes ⊆ A)
    (hx : x = r.reg .si ∨ Reg.si.bytes ⊆ A) (hy : y = r.reg .di ∨ Reg.di.bytes ⊆ A) :
    Frame r (r.withIndices c x y r.draws) A [] := by
  have key {u : State} {q : Reg} {v : Word} (h : v = u.reg q ∨ q.bytes ⊆ A) : Frame u (u.setReg q v) A [] := by
    rcases h with rfl | h
    · rw [State.setReg_reg]
      exact (Frame.refl u).mono (List.nil_subset A) (List.Subset.refl _)
    · exact (frame_setReg_bytes u q v).mono h (List.Subset.refl _)
  exact ((key hc).trans_same (key (u := r.setReg .cx c) hx)).trans_same (key (u := (r.setReg .cx c).setReg .si x) hy)

/-! ### One iteration -/

theorem State.movsBody_of_plain (hp : Plain w s.dstElement) :
    s.movsBody w = .next ((s.putMem w s.dstElement (s.readMem w s.srcElement)).withIndices
      (s.reg .cx) (s.reg .si + s.delta w) (s.reg .di + s.delta w) s.draws) := by
  rw [State.movsBody, State.writeMem_of_canStore (canStore_of_plain hp _), andThen_next]
  obtain ⟨m, h⟩ := State.putMem_plain (s := s) hp (s.readMem w s.srcElement)
  rw [h, State.stepSI_eq, State.stepDI_eq]
  rfl

theorem State.stosBody_of_plain (hp : Plain w s.dstElement) :
    s.stosBody w = .next ((s.putMem w s.dstElement (s.readReg w 0)).withIndices
      (s.reg .cx) (s.reg .si) (s.reg .di + s.delta w) s.draws) := by
  rw [State.stosBody, State.writeMem_of_canStore (canStore_of_plain hp _), andThen_next]
  obtain ⟨m, h⟩ := State.putMem_plain (s := s) hp (s.readReg w 0)
  rw [h, State.stepDI_eq]
  rfl

theorem State.lodsBody_eq (s : State) (w : Width) :
    s.lodsBody w = .next ((s.writeReg w 0 (s.readMem w s.srcElement)).withIndices
      (s.reg .cx) (s.reg .si + s.delta w) (s.reg .di) s.draws) := by
  rw [State.lodsBody, State.stepSI_eq]
  cases w <;> rfl

/-! ### Not repeated -/

theorem exec_movs (s : State) (w : Width) : exec (.movs w) s = s.repeated fun u => u.movsBody w := rfl

theorem exec_stos (s : State) (w : Width) : exec (.stos w) s = s.repeated fun u => u.stosBody w := rfl

theorem exec_lods (s : State) (w : Width) : exec (.lods w) s = s.repeated fun u => u.lodsBody w := rfl

theorem State.repeated_alone {body : State → Result} (h0 : s.repCnt = 0) :
    s.repeated body = andThen (body s) fun u => u.advance 1 := if_neg (not_not_intro h0)

/-- One iteration that answers a next state, then `SetIP(next)`. -/
theorem runsTo_alone {body : State → Result} {post : State → Prop} (h : exec i s = s.repeated body) (h0 : s.repCnt = 0)
    (hb : body s = .next t) (hip : t.IP = s.IP) (hp : post t)
    (hc : ∀ (u : State) (v : Word), post u → post { u with IP := v } := by exact fun _ _ h => h) : RunsTo i s 1 post :=
  runsTo_advance (by rw [h, State.repeated_alone h0, hb, andThen_next]) hip hp hc

/-- A store, an update that leaves `IP`, and `SetIP(next)` inside the segment. -/
theorem andThen_writeMem_advance {a : Addr} {v : BitVec w.bits} {g : State → State} (hf : s.Fits 1) (hg : ∀ u, (g u).IP = u.IP) :
    andThen (andThen (s.writeMem w a v) fun u => .next (g u)) (fun u => u.advance 1) =
      andThen (s.writeMem w a v) fun u => .next { g u with IP := s.IP + 1 } := by
  cases h : canStore w a v with
  | false => simp [State.writeMem, h]
  | true =>
    have hip : (g (s.putMem w a v)).IP = s.IP := by rw [hg, State.putMem_IP]
    rw [State.writeMem_of_canStore h, andThen_next, andThen_next, andThen_next, State.advance_of_fits ((fits_congr hip).2 hf), hip]
    rfl

/-- A store to ordinary memory, then other values of the indices: the element, the indices, and nothing else. -/
theorem putMem_withIndices_spec {a : Addr} {A : List Addr} {v : BitVec w.bits} {x y : Word} (hm : s.mem.wf memSize = true)
    (hp : Plain w a) (hx : x = s.reg .si ∨ Reg.si.bytes ⊆ A) (hy : Reg.di.bytes ⊆ A) :
    Holds ((s.putMem w a v).withIndices (s.reg .cx) x y s.draws) w a v ∧
      Frame s ((s.putMem w a v).withIndices (s.reg .cx) x y s.draws) (bytesAt w a ++ A) [] := by
  refine ⟨holds_of_readMem_eq ?_, ?_⟩
  · exact (readMem_of_plain_congr hp (State.withIndices_mem _ _ _ _ _)).trans (readMem_putMem_of_plain hm hp v)
  · have hf := frame_putMem w a v hm
    obtain ⟨m, h⟩ := State.putMem_plain (s := s) hp v
    rw [h] at hf ⊢
    exact hf.trans (frame_withIndices (.inl rfl) hx (.inr hy))

theorem State.reg_writeAcc_other {q : Reg} (h : q ≠ .ax) (v : BitVec w.bits) : (s.writeReg w 0 v).reg q = s.reg q := by
  cases w <;> exact State.reg_setReg_other _ _ h

/-- The accumulator is written, then `SI` and perhaps `CX` are given other values. -/
theorem frame_writeAcc_withIndices {A : List Addr} {v : BitVec w.bits} {c x : Word} (hc : c = s.reg .cx ∨ Reg.cx.bytes ⊆ A)
    (hx : Reg.si.bytes ⊆ A) :
    Frame s ((s.writeReg w 0 v).withIndices c x (s.reg .di) s.draws) (bytesAt w (regAddr w 0) ++ A) [] := by
  have hd : (s.writeReg w 0 v).draws = s.draws := by cases w <;> rfl
  rw [← State.reg_writeAcc_other (q := .cx) (by decide) v] at hc
  have h := frame_withIndices (x := x) hc (.inr hx) (.inl (State.reg_writeAcc_other (q := .di) (by decide) v).symm)
  rw [hd] at h
  exact (frame_writeReg s w 0 v).trans h

end Sys2Proof.Machine

open Sys2Proof Sys2Proof.Machine

/-- Settles O53: to ordinary memory each is a store or a load, then other values of the indices. -/
theorem stringElements : Obligations.StringElements := by
  unfold Obligations.StringElements
  intro s w hm h0
  rw [← State.srcElement_eq, ← State.dstElement_eq]
  refine ⟨fun hp => ?movs, fun hp => ?stos, ?lods, fun hf => ⟨?movsOrder, ?stosOrder⟩⟩
  case movs =>
    obtain ⟨hholds, hframe⟩ := putMem_withIndices_spec (A := Reg.si.bytes ++ Reg.di.bytes) (v := s.readMem w s.srcElement)
      (x := s.reg .si + s.delta w) (y := s.reg .di + s.delta w) hm hp (.inr (by simp)) (by simp)
    rw [← List.append_assoc] at hframe
    exact runsTo_alone (exec_movs s w) h0 (State.movsBody_of_plain hp) (State.putMem_IP s w _ _)
      ⟨hholds, State.reg_si_withIndices _ _ _ _ _, State.reg_di_withIndices _ _ _ _ _, hframe⟩
  case stos =>
    obtain ⟨hholds, hframe⟩ := putMem_withIndices_spec (A := Reg.di.bytes) (v := s.readReg w 0)
      (y := s.reg .di + s.delta w) hm hp (.inl rfl) (by simp)
    exact runsTo_alone (exec_stos s w) h0 (State.stosBody_of_plain hp) (State.putMem_IP s w _ _)
      ⟨hholds, State.reg_di_withIndices _ _ _ _ _, hframe⟩
  case lods =>
    exact runsTo_alone (exec_lods s w) h0 (s.lodsBody_eq w) (State.writeReg_IP s w 0 _)
      ⟨(State.withIndices_readAcc _ _ _ _ _ _).trans (State.readReg_writeReg_same s w 0 _), State.reg_si_withIndices _ _ _ _ _,
        frame_writeAcc_withIndices (.inl rfl) (by simp)⟩
  case movsOrder =>
    exact ((exec_movs s w).trans (State.repeated_alone h0)).trans
      (andThen_writeMem_advance (g := fun u => (u.stepSI w).stepDI w) hf fun _ => rfl)
  case stosOrder =>
    exact ((exec_stos s w).trans (State.repeated_alone h0)).trans
      (andThen_writeMem_advance (g := fun u => u.stepDI w) hf fun _ => rfl)

end

section
/-! PROOFS. `REP STOS`, `REP MOVS`, `REP LODS` (44_string_prefix R252, R254 to R256). -/

namespace Sys2Proof.Machine

variable {i : Instr} {s t : State} {w : Width} {body one : State → Result} {n : Nat} {v : Nat → BitVec w.bits}

/-! ### Iterations -/

/-- A predicate that each of `n` iterations takes from one state to the next holds at the end. -/
theorem repeatBody_induction {P : Nat → State → Prop} (h0 : P 0 s)
    (hstep : ∀ k < n, ∀ t, P k t → ∃ u, body t = .next u ∧ P (k + 1) u.nextDraw) :
    ∃ t, repeatBody body n s = .next t ∧ P n t := by
  have key (m : Nat) : ∀ k t, k + m = n → P k t → ∃ u, repeatBody body m t = .next u ∧ P n u := by
    induction m with
    | zero =>
      rintro k t rfl hk
      exact ⟨t, rfl, hk⟩
    | succ m ih =>
      intro k t hkn hk
      obtain ⟨u, hu, hP⟩ := hstep k (by omega) t hk
      rw [repeatBody, hu, andThen_next]
      exact ih (k + 1) u.nextDraw (by omega) hP
  exact key n 0 s (Nat.zero_add n) h0

theorem repeatBody_add (body : State → Result) (m n : Nat) (s : State) :
    repeatBody body (m + n) s = andThen (repeatBody body m s) (repeatBody body n) := by
  induction m generalizing s with
  | zero => rw [Nat.zero_add, repeatBody, andThen_next]
  | succ m ih =>
    rw [Nat.add_right_comm, repeatBody, repeatBody, andThen_assoc]
    exact congrArg (andThen (body s)) (funext fun u => ih u.nextDraw)

/-- The iterations of `Iterates` are those of the loop: the body, then the next draw. -/
theorem repeatBody_of_iterates {u : Nat → State} (hone : ∀ t, one t = andThen (body t) fun x => .next x.nextDraw)
    (hip : ∀ t x, body t = .next x → x.IP = t.IP) (h : Iterates one s u n) :
    repeatBody body n s = .next (u n) ∧ (u n).IP = s.IP := by
  obtain ⟨hu0, hu⟩ := h
  have hP : ∃ t, repeatBody body n s = .next t ∧ (t = u n ∧ t.IP = s.IP) :=
    repeatBody_induction (P := fun k t => t = u k ∧ t.IP = s.IP) ⟨hu0.symm, rfl⟩ (by
      rintro k hk t ⟨rfl, hk0⟩
      have hk1 := hu k hk
      rw [hone] at hk1
      obtain ⟨x, hx, hnext⟩ := andThen_eq_next.1 hk1
      exact ⟨x, hx, Host.Outcome.next.inj hnext, (hip _ x hx).trans hk0⟩)
  obtain ⟨t, ht, rfl, hip'⟩ := hP
  exact ⟨ht, hip'⟩

theorem State.repeated_of_repeats (h : s.Repeats n) :
    s.repeated body = andThen (repeatBody body n s) fun t => (t.setReg .cx 0).advance 1 := by
  obtain ⟨hr, rfl⟩ := h
  exact if_pos hr

/-- The loop, `CX` cleared, then `SetIP(next)`. -/
theorem runsTo_repeated {post : State → Prop} (h : exec i s = s.repeated body) (hr : s.Repeats n)
    (hb : repeatBody body n s = .next t) (hip : t.IP = s.IP) (hp : post (t.setReg .cx 0))
    (hc : ∀ (u : State) (v : Word), post u → post { u with IP := v } := by exact fun _ _ h => h) : RunsTo i s 1 post :=
  runsTo_advance (t := t.setReg .cx 0) (by rw [h, State.repeated_of_repeats hr, hb, andThen_next]) hip hp hc

/-- For every state: `n` iterations, each on what the one before left; one that is refused ends the instruction. -/
theorem iterates_spec {u : Nat → State} {m : Nat} (h : exec i s = s.repeated body) (hr : s.Repeats n)
    (hone : ∀ t, one t = andThen (body t) fun x => .next x.nextDraw)
    (hip : ∀ t x, body t = .next x → x.IP = t.IP) (hu : Iterates one s u m) :
    (m = n → RunsTo i s 1 fun t => t = { (u n).setReg .cx 0 with IP := t.IP }) ∧
      (m < n → ∀ x, one (u m) = .refused x → exec i s = .refused x) := by
  obtain ⟨hloop, hip'⟩ := repeatBody_of_iterates hone hip hu
  refine ⟨?_, fun hmn x hx => ?_⟩
  · rintro rfl
    exact runsTo_repeated h hr hloop hip' rfl fun t v ht => congrArg (fun z : State => { z with IP := v }) ht
  · obtain ⟨k, rfl⟩ := Nat.exists_eq_add_of_lt hmn
    have hbody : body (u m) = .refused x := by
      have e := (hone (u m)).symm.trans hx
      cases hb : body (u m) with
      | next y => rw [hb] at e; exact nomatch e
      | fault f => rw [hb] at e; exact nomatch e
      | refused y => rw [hb] at e; exact e
    rw [h, State.repeated_of_repeats hr, Nat.add_assoc, repeatBody_add, hloop, andThen_next, repeatBody, hbody]
    rfl

/-- With `CX = 0` there is no iteration. -/
theorem jumpsTo_repeated_zero (h : exec i s = s.repeated body) (hr : s.Repeats 0) : JumpsTo i s s (s.IP.toNat + 1) := by
  refine jumpsTo_advance ?_
  have hcx : s.setReg .cx 0 = s := by
    rw [show (0 : Word) = s.reg .cx from (BitVec.eq_of_toNat_eq hr.2).symm, State.setReg_reg]
  rw [h, State.repeated_of_repeats hr, repeatBody, andThen_next, hcx]

/-! ### The iterations of `MOVS`, `STOS`, `LODS` -/

theorem State.movsOnce_eq (w : Width) (s : State) : s.movsOnce w = andThen (s.movsBody w) fun u => .next u.nextDraw := by
  have hstep (t : State) : (t.setReg .si (t.reg .si + t.delta w)).setReg .di (t.reg .di + t.delta w) = (t.stepSI w).stepDI w := by
    rw [State.stepSI_eq, State.stepDI_eq]
    rfl
  simp only [State.movsOnce, State.movsBody, State.srcElement_eq _ w, State.dstElement_eq _ w, andThen_assoc, andThen_next, hstep]

theorem State.stosOnce_eq (w : Width) (s : State) : s.stosOnce w = andThen (s.stosBody w) fun u => .next u.nextDraw := by
  simp only [State.stosOnce, State.stosBody, State.dstElement_eq _ w, andThen_assoc, andThen_next, State.stepDI_eq]

theorem State.lodsOnce_eq (w : Width) (s : State) : s.lodsOnce w = andThen (s.lodsBody w) fun u => .next u.nextDraw := by
  simp only [State.lodsOnce, State.lodsBody, State.srcElement_eq _ w, andThen_next, State.stepSI_eq]

theorem IP_of_andThen_writeMem {a : Addr} {x : BitVec w.bits} {g : State → State} (hg : ∀ u, (g u).IP = u.IP)
    (h : (andThen (s.writeMem w a x) fun u => .next (g u)) = .next t) : t.IP = s.IP := by
  obtain ⟨u, hu, ht⟩ := andThen_eq_next.1 h
  rw [← Host.Outcome.next.inj ht, hg, (State.writeMem_eq_next.1 hu).2, State.putMem_IP]

theorem State.movsBody_IP (h : s.movsBody w = .next t) : t.IP = s.IP :=
  IP_of_andThen_writeMem (g := fun u => (u.stepSI w).stepDI w) (fun _ => rfl) h

theorem State.stosBody_IP (h : s.stosBody w = .next t) : t.IP = s.IP :=
  IP_of_andThen_writeMem (g := fun u => u.stepDI w) (fun _ => rfl) h

theorem State.lodsBody_IP (h : s.lodsBody w = .next t) : t.IP = s.IP := by
  rw [← Host.Outcome.next.inj h]
  exact State.writeReg_IP s w 0 _

/-! ### Elements of ordinary memory -/

theorem lin_left_cancel {seg x y : Word} (h : lin seg x = lin seg y) : x = y := by
  have h' := congrArg BitVec.toNat h
  have hx := x.isLt
  have hy := y.isLt
  simp only [lin, BitVec.toNat_ofNat] at h'
  exact BitVec.eq_of_toNat_eq (by omega)

/-- Two elements with one destination have one source, since offsets wrap at 2^16 for both. -/
theorem State.srcAt_eq_of_dstAt_eq {j k : Nat} (h : s.dstAt w j = s.dstAt w k) : s.srcAt w j = s.srcAt w k := by
  have hmul := (BitVec.add_right_inj _).1 (lin_left_cancel h)
  rw [State.srcAt, State.srcAt, hmul]

/-- The destination words of one instruction are all at even or all at odd addresses. -/
theorem State.dstAt_word_parity (s : State) (k : Nat) : (s.dstAt .word k).toNat % 2 = (s.reg .di).toNat % 2 := by
  have hδ : (s.delta .word).toNat % 2 = 0 := by
    unfold State.delta
    split <;> rfl
  have hmul : (BitVec.ofNat 16 k * s.delta .word).toNat % 2 = 0 := by
    rw [BitVec.toNat_mul, Nat.mod_mod_of_dvd _ (by decide), Nat.mul_mod, hδ, Nat.mul_zero, Nat.zero_mod]
  simp only [State.dstAt, lin, BitVec.toNat_ofNat, BitVec.toNat_add]
  omega

theorem State.dstAt_word_ne_succ (s : State) (j k : Nat) : s.dstAt .word j ≠ s.dstAt .word k + 1#20 := by
  intro h
  have hj := s.dstAt_word_parity j
  have hk := s.dstAt_word_parity k
  rw [h, BitVec.toNat_add, BitVec.toNat_ofNat] at hj
  omega

/-- Two destination elements are the same or lie apart. -/
theorem State.dstAt_disjoint {j k : Nat} (h : s.dstAt w j ≠ s.dstAt w k) :
    ∀ a ∈ bytesAt w (s.dstAt w j), a ∉ bytesAt w (s.dstAt w k) := by
  cases w with
  | byte => simpa [bytesAt] using h
  | word =>
    simp only [bytesAt, List.mem_cons, List.not_mem_nil, or_false, forall_eq_or_imp, forall_eq, not_or]
    exact ⟨⟨h, s.dstAt_word_ne_succ j k⟩, fun e => s.dstAt_word_ne_succ k j e.symm, fun e => h ((BitVec.add_left_inj _).1 e)⟩

theorem State.dstBytes_succ (s : State) (w : Width) (k : Nat) :
    s.dstBytes w (k + 1) = s.dstBytes w k ++ bytesAt w (s.dstAt w k) := by
  simp [State.dstBytes, List.range_succ]

theorem State.dstBytes_subset {j k : Nat} (h : j ≤ k) : s.dstBytes w j ⊆ s.dstBytes w k := by
  intro a ha
  obtain ⟨x, hx, hm⟩ := List.mem_flatMap.1 ha
  rw [List.mem_range] at hx
  exact List.mem_flatMap.2 ⟨x, List.mem_range.2 (by omega), hm⟩

/-- With `m` as its memory, `s` has the values `v` in its first `k` destination elements and is as before elsewhere. -/
structure ElementsStored (s : State) (w : Width) (v : Nat → BitVec w.bits) (k : Nat) (m : Memory) : Prop where
  wf : m.wf memSize = true
  element : ∀ j < k, State.readMem { s with mem := m } w (s.dstAt w j) = v j
  frame : Frame s { s with mem := m } (s.dstBytes w k) []

theorem ElementsStored.zero (hm : s.mem.wf memSize = true) : ElementsStored s w v 0 s.mem :=
  ⟨hm, fun _ hj => absurd hj (Nat.not_lt_zero _), Frame.refl s⟩

/-- One more element: an earlier one either is the same element, with the same value, or lies apart from it. -/
theorem ElementsStored.succ {k : Nat} {m : Memory} (h : ElementsStored s w v k m) (hp : Plain w (s.dstAt w k))
    (hv : ∀ j < k, s.dstAt w j = s.dstAt w k → v j = v k) :
    ElementsStored s w v (k + 1) (State.putMem { s with mem := m } w (s.dstAt w k) (v k)).mem := by
  have hf := frame_putMem (s := { s with mem := m }) w (s.dstAt w k) (v k) h.wf
  have hsame := readMem_putMem_of_plain (s := { s with mem := m }) h.wf hp (v k)
  have hwf := State.putMem_mem_wf (s := { s with mem := m }) (w := w) (a := s.dstAt w k) (v := v k) h.wf
  obtain ⟨m', hm'⟩ := State.putMem_plain (s := { s with mem := m }) hp (v k)
  rw [hm'] at hf hsame hwf ⊢
  refine ⟨hwf, fun j hj => ?_, s.dstBytes_succ w k ▸ h.frame.trans hf⟩
  by_cases he : s.dstAt w j = s.dstAt w k
  · rw [he]
    rcases Nat.lt_succ_iff_lt_or_eq.1 hj with hlt | rfl
    · exact hsame.trans (hv j hlt he).symm
    · exact hsame
  · have hlt : j < k := (Nat.lt_succ_iff_lt_or_eq.1 hj).resolve_right fun e => he (e ▸ rfl)
    exact (hf.readMem_eq (State.dstAt_disjoint he)).trans (h.element j hlt)

/-- The states that a loop storing `v` goes through: `k` elements stored, `DI` moved by `k` elements, `SI` at `x k`. -/
def StoringAt (s : State) (w : Width) (v : Nat → BitVec w.bits) (x : Nat → Word) (k : Nat) (t : State) : Prop :=
  ∃ m d, ElementsStored s w v k m ∧ t = State.withIndices { s with mem := m } (s.reg .cx) (x k) (s.diAt w k) d

theorem storingAt_zero {x : Nat → Word} (hm : s.mem.wf memSize = true) (hx : x 0 = s.reg .si) : StoringAt s w v x 0 s :=
  ⟨s.mem, s.draws, ElementsStored.zero hm, by rw [hx, State.diAt_zero]; rfl⟩

theorem StoringAt.dstElement {x : Nat → Word} {k : Nat} (h : StoringAt s w v x k t) : t.dstElement = s.dstAt w k := by
  obtain ⟨m, d, -, rfl⟩ := h
  rfl

theorem StoringAt.srcElement {k : Nat} (h : StoringAt s w v (s.siAt w) k t) : t.srcElement = s.srcAt w k := by
  obtain ⟨m, d, -, rfl⟩ := h
  exact State.withIndices_srcElement _ _ _ _ _

theorem StoringAt.delta {x : Nat → Word} {k : Nat} (h : StoringAt s w v x k t) : t.delta w = s.delta w := by
  obtain ⟨m, d, -, rfl⟩ := h
  rfl

theorem StoringAt.reg_si {x : Nat → Word} {k : Nat} (h : StoringAt s w v x k t) : t.reg .si = x k := by
  obtain ⟨m, d, -, rfl⟩ := h
  rfl

theorem StoringAt.reg_di {x : Nat → Word} {k : Nat} (h : StoringAt s w v x k t) : t.reg .di = s.diAt w k := by
  obtain ⟨m, d, -, rfl⟩ := h
  rfl

theorem StoringAt.IP {x : Nat → Word} {k : Nat} (h : StoringAt s w v x k t) : t.IP = s.IP := by
  obtain ⟨m, d, -, rfl⟩ := h
  rfl

theorem StoringAt.readAcc {x : Nat → Word} {k : Nat} (h : StoringAt s w v x k t) : t.readReg w 0 = s.readReg w 0 := by
  obtain ⟨m, d, -, rfl⟩ := h
  cases w <;> rfl

/-- Ordinary memory apart from the elements stored so far reads as before. -/
theorem StoringAt.readMem_other {x : Nat → Word} {k : Nat} {a : Addr} (h : StoringAt s w v x k t) (hp : Plain w a)
    (ha : ∀ b ∈ bytesAt w a, b ∉ s.dstBytes w k) : t.readMem w a = s.readMem w a := by
  obtain ⟨m, d, hs, rfl⟩ := h
  exact (readMem_of_plain_congr hp (State.withIndices_mem _ _ _ _ _)).trans (hs.frame.readMem_eq ha)

theorem StoringAt.readMem_element {x : Nat → Word} {k j : Nat} (h : StoringAt s w v x k t) (hj : j < k)
    (hp : Plain w (s.dstAt w j)) : t.readMem w (s.dstAt w j) = v j := by
  obtain ⟨m, d, hs, rfl⟩ := h
  exact (readMem_of_plain_congr hp (State.withIndices_mem _ _ _ _ _)).trans (hs.element j hj)

/-- The next element is stored and the indices move. -/
theorem StoringAt.succ {x : Nat → Word} {k : Nat} (h : StoringAt s w v x k t) (hp : Plain w (s.dstAt w k))
    (hv : ∀ j < k, s.dstAt w j = s.dstAt w k → v j = v k) :
    StoringAt s w v x (k + 1)
      ((t.putMem w (s.dstAt w k) (v k)).withIndices (t.reg .cx) (x (k + 1)) (t.reg .di + t.delta w) t.draws).nextDraw := by
  obtain ⟨m, d, hs, rfl⟩ := h
  obtain ⟨m', hm'⟩ := State.putMem_plain (s := { s with mem := m }) hp (v k)
  have hs' := hs.succ hp hv
  rw [hm'] at hs'
  have hδ : State.delta { s with mem := m } w = s.delta w := rfl
  refine ⟨m', d + 1, hs', ?_⟩
  simp only [State.withIndices_putMem _ _ _ _ _ _ hp, hm', State.withIndices_withIndices, State.withIndices_nextDraw,
    State.reg_cx_withIndices, State.reg_di_withIndices, State.withIndices_delta, State.withIndices_draws, hδ, State.diAt_succ]

/-- What is left once `n` elements are stored and `CX` is cleared. -/
theorem StoringAt.finish {x : Nat → Word} {A : List Addr} (h : StoringAt s w v x n t)
    (hx : x n = s.reg .si ∨ Reg.si.bytes ⊆ A) (hdi : Reg.di.bytes ⊆ A) (hcx : Reg.cx.bytes ⊆ A) :
    FrameButDraws s (t.setReg .cx 0) (s.dstBytes w n ++ A) [] := by
  obtain ⟨m, d, hs, rfl⟩ := h
  exact hs.frame.trans (frame_withIndices (r := { s with mem := m }) (.inr hcx) hx (.inr hdi))

/-- The end of an instruction whose loop has stored `n` elements of ordinary memory. -/
theorem runsTo_of_storingAt {x : Nat → Word} {A : List Addr} (h : exec i s = s.repeated body) (hr : s.Repeats n)
    (hloop : ∃ t, repeatBody body n s = .next t ∧ StoringAt s w v x n t) (hp : ∀ k < n, Plain w (s.dstAt w k))
    (hx : x n = s.reg .si ∨ Reg.si.bytes ⊆ A) (hdi : Reg.di.bytes ⊆ A) (hcx : Reg.cx.bytes ⊆ A) :
    RunsTo i s 1 fun t =>
      (∀ k < n, t.readMem w (s.dstAt w k) = v k) ∧ t.reg .si = x n ∧ t.reg .di = s.diAt w n ∧ t.reg .cx = 0 ∧
        FrameButDraws s t (s.dstBytes w n ++ A) [] := by
  obtain ⟨t, hb, hs⟩ := hloop
  have hmem : (t.setReg .cx 0).mem = t.mem := State.setReg_mem t .cx 0
  refine runsTo_repeated h hr hb hs.IP ⟨fun k hk => ?_, hs.reg_si, hs.reg_di, rfl, hs.finish hx hdi hcx⟩
    fun u y hu => ⟨fun k hk => ?_, hu.2⟩
  · exact (readMem_of_plain_congr (hp k hk) hmem).trans (hs.readMem_element hk (hp k hk))
  · exact (readMem_of_plain_congr (s := u) (hp k hk) rfl).trans (hu.1 k hk)

/-- `REP STOS` to ordinary memory. -/
theorem runsTo_stos_repeated (hm : s.mem.wf memSize = true) (hr : s.Repeats n) (hp : ∀ k < n, Plain w (s.dstAt w k)) :
    RunsTo (.stos w) s 1 fun t =>
      (∀ k < n, t.readMem w (s.dstAt w k) = s.readReg w 0) ∧ t.reg .si = s.reg .si ∧ t.reg .di = s.diAt w n ∧ t.reg .cx = 0 ∧
        FrameButDraws s t (s.dstBytes w n ++ (Reg.di.bytes ++ Reg.cx.bytes)) [] := by
  have hloop : ∃ t, repeatBody (fun u => u.stosBody w) n s = .next t ∧
      StoringAt s w (fun _ => s.readReg w 0) (fun _ => s.reg .si) n t :=
    repeatBody_induction (storingAt_zero hm rfl) fun k hk t h => by
      have hb := State.stosBody_of_plain (h.dstElement ▸ hp k hk)
      rw [h.dstElement, h.readAcc, h.reg_si] at hb
      exact ⟨_, hb, h.succ (hp k hk) fun _ _ _ => rfl⟩
  exact runsTo_of_storingAt (exec_stos s w) hr hloop hp (.inl rfl) (by simp) (by simp)

/-- `REP MOVS` to ordinary memory, where each iteration reads `v k`. -/
theorem runsTo_movs_repeated (hm : s.mem.wf memSize = true) (hr : s.Repeats n) (hp : ∀ k < n, Plain w (s.dstAt w k))
    (hv : ∀ k < n, ∀ j < k, s.dstAt w j = s.dstAt w k → v j = v k)
    (hread : ∀ k < n, ∀ t, StoringAt s w v (s.siAt w) k t → t.readMem w (s.srcAt w k) = v k) :
    RunsTo (.movs w) s 1 fun t =>
      (∀ k < n, t.readMem w (s.dstAt w k) = v k) ∧ t.reg .si = s.siAt w n ∧ t.reg .di = s.diAt w n ∧ t.reg .cx = 0 ∧
        FrameButDraws s t (s.dstBytes w n ++ (Reg.si.bytes ++ (Reg.di.bytes ++ Reg.cx.bytes))) [] := by
  have hloop : ∃ t, repeatBody (fun u => u.movsBody w) n s = .next t ∧ StoringAt s w v (s.siAt w) n t :=
    repeatBody_induction (storingAt_zero hm (s.siAt_zero w)) fun k hk t h => by
      have hb := State.movsBody_of_plain (h.dstElement ▸ hp k hk)
      rw [h.dstElement, h.srcElement, hread k hk t h, h.reg_si, h.delta, ← State.siAt_succ, ← h.delta] at hb
      exact ⟨_, hb, h.succ (hp k hk) (hv k hk)⟩
  exact runsTo_of_storingAt (exec_movs s w) hr hloop hp (.inr (by simp)) (by simp) (by simp)

/-! ### `REP LODS` -/

theorem State.writeAcc_readAcc (s : State) (w : Width) : s.writeReg w 0 (s.readReg w 0) = s := by
  cases w with
  | byte =>
    have h : withByte false (byteOf false (s.reg .ax)) (s.reg .ax) = s.reg .ax := byteOf_append_byteOf _
    exact (congrArg (s.setReg .ax) h).trans (s.setReg_reg .ax)
  | word => exact s.setReg_reg .ax

theorem State.writeAcc_writeAcc (s : State) (x y : BitVec w.bits) : (s.writeReg w 0 x).writeReg w 0 y = s.writeReg w 0 y := by
  cases w with
  | byte =>
    have h : withByte false y (withByte false x (s.reg .ax)) = withByte false y (s.reg .ax) :=
      congrArg (· ++ y) (byteOf_withByte_high x _)
    exact congrArg (s.setReg .ax) h
  | word => rfl

theorem State.writeAcc_segment (s : State) (x : BitVec w.bits) : (s.writeReg w 0 x).segment .ds = s.segment .ds := by
  have hreg (sr : SReg) : (s.writeReg w 0 x).reg (Reg.ofSReg sr) = s.reg (Reg.ofSReg sr) :=
    State.reg_writeAcc_other (by cases sr <;> decide) x
  have hcnt : (s.writeReg w 0 x).segOvrCnt = s.segOvrCnt := by cases w <;> rfl
  have hsr : (s.writeReg w 0 x).segOvrReg = s.segOvrReg := by cases w <;> rfl
  simp only [State.segment, hcnt, hsr, hreg]

/-- The states that `REP LODS` goes through: after `k` elements the accumulator holds the last of them, where that is ordinary
memory. -/
def LoadingAt (s : State) (w : Width) (k : Nat) (t : State) : Prop :=
  ∃ y d, t = (s.writeReg w 0 y).withIndices (s.reg .cx) (s.siAt w k) (s.reg .di) d ∧
    ∀ j, j + 1 = k → Plain w (s.srcAt w j) → y = s.readMem w (s.srcAt w j)

theorem loadingAt_zero (s : State) (w : Width) : LoadingAt s w 0 s :=
  ⟨s.readReg w 0, s.draws, by rw [State.writeAcc_readAcc, State.siAt_zero, State.withIndices_self],
    fun j hj => absurd hj (Nat.succ_ne_zero j)⟩

theorem LoadingAt.succ {k : Nat} (h : LoadingAt s w k t) : ∃ u, t.lodsBody w = .next u ∧ LoadingAt s w (k + 1) u.nextDraw := by
  obtain ⟨y, d, ht, -⟩ := h
  have hδ : (s.writeReg w 0 y).delta w = s.delta w := by cases w <;> rfl
  have hmem : (s.writeReg w 0 y).mem = s.mem := State.writeReg_mem s w 0 y
  have hsrc : lin ((s.writeReg w 0 y).segment .ds) (s.siAt w k) = s.srcAt w k := by rw [State.writeAcc_segment]; rfl
  refine ⟨_, t.lodsBody_eq w, t.readMem w t.srcElement, d + 1, ?_, ?_⟩
  · simp only [ht, State.withIndices_writeAcc, State.writeAcc_writeAcc, State.withIndices_withIndices, State.withIndices_nextDraw,
      State.withIndices_draws, State.reg_cx_withIndices, State.reg_si_withIndices, State.reg_di_withIndices,
      State.withIndices_delta, hδ, State.siAt_succ]
  · intro j hj hp
    obtain rfl := Nat.succ_inj.1 hj
    rw [ht, State.withIndices_srcElement, hsrc]
    exact readMem_of_plain_congr hp ((State.withIndices_mem _ _ _ _ _).trans hmem)

/-- What is left once `n` elements are loaded and `CX` is cleared. -/
theorem LoadingAt.finish (h : LoadingAt s w n t) :
    (∀ j, j + 1 = n → Plain w (s.srcAt w j) → (t.setReg .cx 0).readReg w 0 = s.readMem w (s.srcAt w j)) ∧
      t.IP = s.IP ∧ t.reg .si = s.siAt w n ∧
      FrameButDraws s (t.setReg .cx 0) (bytesAt w (regAddr w 0) ++ (Reg.si.bytes ++ Reg.cx.bytes)) [] := by
  obtain ⟨y, d, rfl, hy⟩ := h
  refine ⟨fun j hj hp => ?_, State.writeReg_IP s w 0 y, State.reg_si_withIndices _ _ _ _ _,
    frame_writeAcc_withIndices (.inr (by simp)) (by simp)⟩
  rw [State.withIndices_setReg_cx, State.withIndices_readAcc, State.readReg_writeReg_same]
  exact hy j hj hp

theorem runsTo_lods_repeated (hr : s.Repeats n) :
    RunsTo (.lods w) s 1 fun t =>
      (∀ j, j + 1 = n → Plain w (s.srcAt w j) → t.readReg w 0 = s.readMem w (s.srcAt w j)) ∧ t.reg .si = s.siAt w n ∧
        t.reg .cx = 0 ∧ FrameButDraws s t (bytesAt w (regAddr w 0) ++ (Reg.si.bytes ++ Reg.cx.bytes)) [] := by
  obtain ⟨t, hb, ht⟩ := repeatBody_induction (body := fun u => u.lodsBody w) (n := n) (loadingAt_zero s w)
    fun _ _ _ h => h.succ
  obtain ⟨hacc, hip, hsi, hframe⟩ := ht.finish
  refine runsTo_repeated (exec_lods s w) hr hb hip ⟨hacc, hsi, rfl, hframe⟩ fun u x hu => ?_
  cases w <;> exact hu

end Sys2Proof.Machine

open Sys2Proof Sys2Proof.Machine

/-- Settles O54: the iterations are followed from state to state; on ordinary memory each stores one element, which an element stored
before is or lies apart from. -/
theorem repeatedStrings : Obligations.RepeatedStrings := by
  unfold Obligations.RepeatedStrings
  intro s w n hm hr
  refine ⟨fun hp => ?stos, fun h => ?movs, fun hn hp => ?lods, fun i one u m hi hu => ?iterates,
    fun hn hp0 hp hchain => ?fill, ?zero⟩
  case stos =>
    refine (runsTo_stos_repeated hm hr hp).mono ?_
    rintro t ⟨hread, -, hdi, hcx, hframe⟩
    rw [← List.append_assoc] at hframe
    exact ⟨fun k hk => holds_of_readMem_eq (hread k hk), hdi, hcx, hframe⟩
  case movs =>
    refine (runsTo_movs_repeated (v := fun k => s.readMem w (s.srcAt w k)) hm hr (fun k hk => (h k hk).1) ?_ ?_).mono ?_
    · exact fun k _ j _ he => congrArg (s.readMem w) (State.srcAt_eq_of_dstAt_eq he)
    · intro k hk t ht
      obtain ⟨-, hp, hapart⟩ := h k hk
      exact ht.readMem_other hp fun a ha hmem => hapart a ha (State.dstBytes_subset hk.le hmem)
    · rintro t ⟨hread, hsi, hdi, hcx, hframe⟩
      rw [← List.append_assoc, ← List.append_assoc] at hframe
      exact ⟨fun k hk => holds_of_readMem_eq (hread k hk), hsi, hdi, hcx, hframe⟩
  case lods =>
    refine (runsTo_lods_repeated hr).mono ?_
    rintro t ⟨hacc, hsi, hcx, hframe⟩
    rw [← List.append_assoc] at hframe
    exact ⟨hacc (n - 1) (Nat.succ_pred_eq_of_ne_zero hn) hp, hsi, hcx, hframe⟩
  case iterates =>
    simp only [List.mem_cons, List.not_mem_nil, or_false, Prod.mk.injEq] at hi
    obtain ⟨rfl, rfl⟩ | ⟨rfl, rfl⟩ | ⟨rfl, rfl⟩ := hi
    · exact iterates_spec (exec_movs s w) hr (State.movsOnce_eq w) (fun _ _ => State.movsBody_IP) hu
    · exact iterates_spec (exec_stos s w) hr (State.stosOnce_eq w) (fun _ _ => State.stosBody_IP) hu
    · exact iterates_spec (exec_lods s w) hr (State.lodsOnce_eq w) (fun _ _ => State.lodsBody_IP) hu
  case fill =>
    refine (runsTo_movs_repeated (v := fun _ => s.readMem w (s.srcAt w 0)) hm hr hp (fun _ _ _ _ _ => rfl) ?_).mono
      fun t h => h.1
    intro k hk t ht
    cases k with
    | zero => exact ht.readMem_other hp0 fun a _ => List.not_mem_nil
    | succ j => exact hchain j hk ▸ ht.readMem_element (Nat.lt_succ_self j) (hp j (Nat.lt_of_succ_lt hk))
  case zero =>
    rintro rfl i hi
    simp only [List.mem_cons, List.not_mem_nil, or_false] at hi
    obtain rfl | rfl | rfl := hi
    · exact jumpsTo_repeated_zero (exec_movs s w) hr
    · exact jumpsTo_repeated_zero (exec_stos s w) hr
    · exact jumpsTo_repeated_zero (exec_lods s w) hr

end

section
/-! PROOFS. `CMPS` and `SCAS` (44_string_prefix R253, R257, R258). -/

namespace Sys2Proof.Machine

variable {i : Instr} {s t : State} {w : Width} {pair : State → BitVec w.bits × BitVec w.bits} {update : State → State}

theorem exec_cmps (s : State) (w : Width) :
    exec (.cmps w) s = s.compareRepeated w (fun u => u.cmpsPair w) fun u => u.cmpsStep w := rfl

theorem exec_scas (s : State) (w : Width) :
    exec (.scas w) s = s.compareRepeated w (fun u => u.scasPair w) fun u => u.scasStep w := rfl

/-! ### One pair -/

theorem State.cmpsStep_eq (s : State) (w : Width) :
    s.cmpsStep w = s.withIndices (s.reg .cx) (s.reg .si + s.delta w) (s.reg .di + s.delta w) (s.draws + 1) := by
  rw [State.cmpsStep, State.stepSI_eq, State.stepDI_eq]
  rfl

theorem State.scasStep_eq (s : State) (w : Width) :
    s.scasStep w = s.withIndices (s.reg .cx) (s.reg .si) (s.reg .di + s.delta w) s.draws := by
  rw [State.scasStep, State.stepDI_eq]
  rfl

theorem State.compareRepeated_alone (h0 : s.repCnt = 0) :
    s.compareRepeated w pair update = (update s).compared (pair s).1 (pair s).2 := if_neg (not_not_intro h0)

theorem State.compareRepeated_zero (hr : s.Repeats 0) : s.compareRepeated w pair update = s.advance 1 := by
  obtain ⟨hr, hcx⟩ := hr
  rw [State.compareRepeated, if_pos hr, if_pos (BitVec.eq_of_toNat_eq hcx)]

theorem State.compareRepeated_loop (hr : s.repCnt ≠ 0) (hcx : s.reg .cx ≠ 0) :
    s.compareRepeated w pair update =
      (compareLoop pair update ((s.reg .cx).toNat - 1) s).1.compared (compareLoop pair update ((s.reg .cx).toNat - 1) s).2.1
        (compareLoop pair update ((s.reg .cx).toNat - 1) s).2.2 := by
  rw [State.compareRepeated, if_pos hr, if_neg hcx]

/-- One iteration of the compare loop: the indices, then `CX` (R253). -/
def compareStep (update : State → State) (s : State) : State := (update s).setReg .cx ((update s).reg .cx - 1#16)

theorem compareLoop_zero : compareLoop pair update 0 s = (compareStep update s, pair s) := rfl

theorem compareLoop_succ (n : Nat) :
    compareLoop pair update (n + 1) s =
      if (compareStep update s).compareEnds (pair s).1 (pair s).2 then (compareStep update s, pair s)
      else compareLoop pair update n (compareStep update s).nextDraw := rfl

/-- One pair compared, not repeated, and the indices moved. -/
theorem runsTo_compare_alone {x y : Word} {d : Nat} (h : exec i s = s.compareRepeated w pair update) (h0 : s.repCnt = 0)
    (hu : update s = s.withIndices (s.reg .cx) x y d) :
    RunsTo i s 1 fun t =>
      FlagsAre t (aluFlags .cmp (pair s).1 (pair s).2 s.flags) statusFlags ∧ t.reg .si = x ∧ t.reg .di = y ∧
        t.reg .cx = s.reg .cx :=
  runsTo_advance (t := (s.withIndices (s.reg .cx) x y d).setFlags (aluFlags .cmp (pair s).1 (pair s).2 s.flags))
    (by rw [h, State.compareRepeated_alone h0, hu]; rfl) rfl ⟨fun _ _ _ => rfl, rfl, rfl, rfl⟩

/-- Repeated with `CX = 0` nothing but `IP` changes. -/
theorem jumpsTo_compare_zero (h : exec i s = s.compareRepeated w pair update) (hr : s.Repeats 0) :
    JumpsTo i s s (s.IP.toNat + 1) :=
  jumpsTo_advance (h.trans (State.compareRepeated_zero hr))

/-! ### Every state -/

/-- `t` differs from `s` in `CX`, `DI` and the draw, and in `SI` where `P` holds of its value. -/
def IndicesOf (s : State) (P : Word → Prop) (t : State) : Prop := ∃ c x y d, P x ∧ t = s.withIndices c x y d

/-- What the loop leaves is what any number of updates leave, each followed by the count of `CX` and the next draw. -/
theorem compareLoop_indices {P : Word → Prop} (hu : ∀ u, IndicesOf s P u → IndicesOf s P (update u)) (n : Nat)
    (h : IndicesOf s P t) : IndicesOf s P (compareLoop pair update n t).1 := by
  have counted {u : State} (hi : IndicesOf s P u) : IndicesOf s P (compareStep update u) := by
    obtain ⟨c, x, y, d, hx, e⟩ := hu u hi
    exact ⟨_, x, y, d, hx, by rw [compareStep, e, State.withIndices_setReg_cx]⟩
  induction n generalizing t with
  | zero => exact counted h
  | succ n ih =>
    rw [compareLoop_succ]
    split
    · exact counted h
    · obtain ⟨c, x, y, d, hx, e⟩ := counted h
      exact ih ⟨c, x, y, d + 1, hx, by rw [e, State.withIndices_nextDraw]⟩

/-- A compare stores nothing: it ends with other values of `CX` and the indices and with the flags of some pair, if any. -/
theorem runsTo_compare {P : Word → Prop} {A : List Addr} (h : exec i s = s.compareRepeated w pair update)
    (hs : P (s.reg .si)) (hu : ∀ u, IndicesOf s P u → IndicesOf s P (update u))
    (hP : ∀ x, P x → x = s.reg .si ∨ Reg.si.bytes ⊆ A) (hdi : Reg.di.bytes ⊆ A) (hcx : Reg.cx.bytes ⊆ A) :
    RunsTo i s 1 fun t => FrameButDraws s t A statusFlags := by
  have hself : IndicesOf s P s := ⟨_, _, _, _, hs, s.withIndices_self.symm⟩
  have compared {u : State} {d e : BitVec w.bits} (hi : IndicesOf s P u) (he : exec i s = u.compared d e) :
      RunsTo i s 1 fun t => FrameButDraws s t A statusFlags := by
    obtain ⟨c, x, y, d', hx, rfl⟩ := hi
    refine runsTo_advance he rfl ?_
    have hf := frame_withIndices (c := c) (.inr hcx) (hP x hx) (.inr hdi) (y := y)
    exact (hf.trans (frame_setFlags (aluFlags_get_other .cmp d e _))).mono (by simp) (List.Subset.refl statusFlags)
  by_cases hr : s.repCnt = 0
  · exact compared (hu s hself) (h.trans (State.compareRepeated_alone hr))
  · by_cases hz : s.reg .cx = 0
    · refine runsTo_advance (h.trans (State.compareRepeated_zero ⟨hr, by rw [hz]; rfl⟩)) rfl ?_
      exact (Frame.refl s).mono (by simp) (by simp)
    · exact compared (compareLoop_indices hu _ hself) (h.trans (State.compareRepeated_loop hr hz))

end Sys2Proof.Machine

open Sys2Proof Sys2Proof.Machine

/-- Settles O55: every state that a compare goes through is the first with other values of `CX`, the indices and the draw. -/
theorem compareStrings : Obligations.CompareStrings := by
  unfold Obligations.CompareStrings
  intro s w
  rw [← State.srcElement_eq, ← State.dstElement_eq]
  refine ⟨?cmps, ?scas, fun h0 => ⟨?cmpsAlone, ?scasAlone⟩, fun hr i hi => ?zero⟩
  case cmps =>
    refine runsTo_compare (P := fun _ => True) (exec_cmps s w) trivial ?_ (fun _ _ => .inr (by simp)) (by simp) (by simp)
    rintro _ ⟨c, x, y, d, -, rfl⟩
    exact ⟨_, _, _, _, trivial, State.cmpsStep_eq _ w⟩
  case scas =>
    refine runsTo_compare (P := (· = s.reg .si)) (exec_scas s w) rfl ?_ (fun _ => .inl) (by simp) (by simp)
    rintro _ ⟨c, x, y, d, rfl, rfl⟩
    exact ⟨_, _, _, _, rfl, State.scasStep_eq _ w⟩
  case cmpsAlone => exact runsTo_compare_alone (exec_cmps s w) h0 (s.cmpsStep_eq w)
  case scasAlone =>
    refine (runsTo_compare_alone (exec_scas s w) h0 (s.scasStep_eq w)).mono ?_
    rintro t ⟨hflags, -, hrest⟩
    exact ⟨hflags, hrest⟩
  case zero =>
    simp only [List.mem_cons, List.not_mem_nil, or_false] at hi
    obtain rfl | rfl := hi
    · exact jumpsTo_compare_zero (exec_cmps s w) hr
    · exact jumpsTo_compare_zero (exec_scas s w) hr

end

section
/-! PROOFS. Repeated `CMPS` and `SCAS` over ordinary memory (44_string_prefix R253). -/

namespace Sys2Proof.Machine

variable {i : Instr} {s t : State} {w : Width} {pair : State → BitVec w.bits × BitVec w.bits} {update : State → State}
  {d e : Nat → BitVec w.bits} {m n k : Nat} {x : Nat → Word}

/-- The loop ends at the first pair at which its tests hold, if the `fuel` reaches that pair. -/
theorem compareLoop_spec {P : Nat → State → Prop} (hpair : ∀ k ≤ m, ∀ t, P k t → pair t = (d k, e k))
    (hstep : ∀ k t, P k t → P (k + 1) (compareStep update t))
    (hdraw : ∀ k t, P k t → P k t.nextDraw)
    (hends : ∀ k ≤ m, ∀ t, P (k + 1) t → (t.compareEnds (d k) (e k) = true ↔ k = m)) (fuel : Nat) (hk : k ≤ m)
    (hf : m ≤ k + fuel) (h : P k t) :
    P (m + 1) (compareLoop pair update fuel t).1 ∧ (compareLoop pair update fuel t).2 = (d m, e m) := by
  induction fuel generalizing k t with
  | zero =>
    obtain rfl : k = m := Nat.le_antisymm hk hf
    exact ⟨hstep k t h, hpair k hk t h⟩
  | succ fuel ih =>
    have he := hends k hk _ (hstep k t h)
    rw [compareLoop_succ, hpair k hk t h]
    split
    · next hend =>
      obtain rfl := he.1 hend
      exact ⟨hstep k t h, rfl⟩
    · next hend =>
      have hne : k ≠ m := fun hkm => hend (he.2 hkm)
      exact ih (by omega) (by omega) (hdraw _ _ (hstep k t h))

/-- The states that a compare loop goes through: after `k` pairs `CX` is lower by `k`, `DI` has moved by `k` elements and `SI` is
`x k`. -/
def ComparedAt (s : State) (w : Width) (x : Nat → Word) (k : Nat) (t : State) : Prop :=
  ∃ draws, t = s.withIndices (s.reg .cx - BitVec.ofNat 16 k) (x k) (s.diAt w k) draws

theorem comparedAt_zero (hx : x 0 = s.reg .si) : ComparedAt s w x 0 s :=
  ⟨s.draws, by rw [hx, State.diAt_zero, BitVec.sub_zero, State.withIndices_self]⟩

theorem ComparedAt.nextDraw (h : ComparedAt s w x k t) : ComparedAt s w x k t.nextDraw := by
  obtain ⟨draws, rfl⟩ := h
  exact ⟨draws + 1, rfl⟩

theorem ComparedAt.dstElement (h : ComparedAt s w x k t) : t.dstElement = s.dstAt w k := by
  obtain ⟨draws, rfl⟩ := h
  rfl

theorem ComparedAt.reg_si (h : ComparedAt s w x k t) : t.reg .si = x k := by
  obtain ⟨draws, rfl⟩ := h
  rfl

theorem ComparedAt.delta (h : ComparedAt s w x k t) : t.delta w = s.delta w := by
  obtain ⟨draws, rfl⟩ := h
  rfl

theorem ComparedAt.srcElement (h : ComparedAt s w (s.siAt w) k t) : t.srcElement = s.srcAt w k := by
  obtain ⟨draws, rfl⟩ := h
  exact State.withIndices_srcElement _ _ _ _ _

theorem ComparedAt.mem (h : ComparedAt s w x k t) : t.mem = s.mem := by
  obtain ⟨draws, rfl⟩ := h
  rfl

theorem ComparedAt.readAcc (h : ComparedAt s w x k t) : t.readReg w 0 = s.readReg w 0 := by
  obtain ⟨draws, rfl⟩ := h
  exact State.withIndices_readAcc _ _ _ _ _ _

theorem ComparedAt.toNat_cx (h : ComparedAt s w x k t) (hn : (s.reg .cx).toNat = n) (hk : k ≤ n) : (t.reg .cx).toNat = n - k := by
  obtain ⟨draws, rfl⟩ := h
  have hlt := (s.reg .cx).isLt
  rw [State.reg_cx_withIndices, BitVec.toNat_sub, BitVec.toNat_ofNat]
  omega

/-- `CX` is counted after the indices have moved. -/
theorem ComparedAt.succ {draws : Nat} (h : ComparedAt s w x k t)
    (hu : update t = t.withIndices (t.reg .cx) (x (k + 1)) (t.reg .di + t.delta w) draws) :
    ComparedAt s w x (k + 1) (compareStep update t) := by
  rw [compareStep, hu]
  obtain ⟨draws', rfl⟩ := h
  refine ⟨draws, ?_⟩
  have hcx : s.reg .cx - BitVec.ofNat 16 k - 1#16 = s.reg .cx - BitVec.ofNat 16 (k + 1) := by
    rw [BitVec.ofNat_add, BitVec.sub_sub]
  simp only [State.withIndices_withIndices, State.withIndices_setReg_cx, State.reg_cx_withIndices, State.reg_di_withIndices,
    State.withIndices_delta, State.diAt_succ, hcx]

/-- The end tests after pair `k` (R253). -/
theorem ComparedAt.compareEnds_iff (h : ComparedAt s w x (k + 1) t) (hn : (s.reg .cx).toNat = n) (hk : k < n)
    (a b : BitVec w.bits) : t.compareEnds a b = true ↔ k + 1 = n ∨ ¬(a = b ↔ s.repMode = .repe) := by
  have hcx := h.toNat_cx hn hk
  have hzero : t.reg .cx = 0 ↔ k + 1 = n := by
    rw [← BitVec.toNat_inj, hcx]
    show n - (k + 1) = 0 ↔ k + 1 = n
    omega
  have hmode : t.repMode = s.repMode := by
    obtain ⟨draws, rfl⟩ := h
    rfl
  have heq : (a - b == 0) = decide (a = b) := aluFlags_cmp_ZF s.flags a b
  rw [State.compareEnds, heq, hmode, Bool.or_eq_true, beq_iff_eq, hzero, bne_iff_ne, beq_eq_decide, ne_eq, decide_eq_decide]

/-- A repeated compare of the pairs `d k`, `e k`, of which pair `m` is the first that ends the loop. -/
theorem runsTo_compare_repeated (h : exec i s = s.compareRepeated w pair update) (hr : s.Repeats n) (hm : m < n)
    (hx : x 0 = s.reg .si) (hpair : ∀ k ≤ m, ∀ t, ComparedAt s w x k t → pair t = (d k, e k))
    (hstep : ∀ k t, ComparedAt s w x k t →
      ∃ draws, update t = t.withIndices (t.reg .cx) (x (k + 1)) (t.reg .di + t.delta w) draws)
    (hgo : ∀ k < m, (d k = e k ↔ s.repMode = .repe)) (hend : m + 1 = n ∨ ¬(d m = e m ↔ s.repMode = .repe)) :
    RunsTo i s 1 fun t =>
      (t.reg .cx).toNat = n - m - 1 ∧ t.reg .di = s.diAt w (m + 1) ∧ t.reg .si = x (m + 1) ∧
        FlagsAre t (aluFlags .cmp (d m) (e m) s.flags) statusFlags ∧ t.flags.ZF = decide (d m = e m) := by
  obtain ⟨hrep, hn⟩ := hr
  have hcx : s.reg .cx ≠ 0 := by
    intro hz
    rw [hz] at hn
    exact absurd (show 0 = n from hn) (by omega)
  have hends : ∀ k ≤ m, ∀ t, ComparedAt s w x (k + 1) t → (t.compareEnds (d k) (e k) = true ↔ k = m) := by
    intro k hk t ht
    rw [ht.compareEnds_iff hn (by omega)]
    refine ⟨fun hor => ?_, fun hkm => hkm ▸ hend⟩
    by_contra hne
    have hlt : k < m := by omega
    rcases hor with hlast | hdiff
    · omega
    · exact hdiff (hgo k hlt)
  obtain ⟨hat, hlast⟩ := compareLoop_spec (P := ComparedAt s w x) hpair
    (fun k t ht => by obtain ⟨draws, hu⟩ := hstep k t ht; exact ht.succ hu) (fun _ _ ht => ht.nextDraw) hends
    ((s.reg .cx).toNat - 1) (Nat.zero_le m) (by omega) (comparedAt_zero hx)
  have hexec := h.trans (State.compareRepeated_loop hrep hcx)
  rw [hlast] at hexec
  have htoNat := hat.toNat_cx hn hm
  generalize (compareLoop pair update ((s.reg .cx).toNat - 1) s).1 = u at hat hexec htoNat
  obtain ⟨draws, rfl⟩ := hat
  exact runsTo_advance hexec rfl ⟨htoNat, rfl, rfl, fun _ _ _ => rfl, aluFlags_cmp_ZF s.flags _ _⟩

end Sys2Proof.Machine

open Sys2Proof Sys2Proof.Machine

/-- Settles O56: over ordinary memory the pairs of the loop are those of the state before, and its tests hold first at pair `m`. -/
theorem repeatedCompare : Obligations.RepeatedCompare := by
  unfold Obligations.RepeatedCompare
  rintro s w n m i d e hr hm hi rfl hdst hgo hend
  obtain ⟨rfl, rfl, hsrc⟩ | ⟨rfl, rfl⟩ := hi
  case inl =>
    refine (runsTo_compare_repeated (x := s.siAt w) (exec_cmps s w) hr hm (s.siAt_zero w) ?_ ?_ hgo hend).mono ?_
    · intro k hk t ht
      have hkn : k < n := by omega
      rw [State.cmpsPair, ht.srcElement, ht.dstElement]
      exact Prod.ext (readMem_of_plain_congr (hsrc k hkn) ht.mem) (readMem_of_plain_congr (hdst k hkn) ht.nextDraw.mem)
    · intro k t ht
      have hsi : t.reg .si + t.delta w = s.siAt w (k + 1) := by rw [ht.reg_si, ht.delta, State.siAt_succ]
      exact ⟨_, hsi ▸ t.cmpsStep_eq w⟩
    · rintro t ⟨hcx, hdi, hsi, hflags⟩
      exact ⟨hcx, hdi, fun _ => hsi, hflags⟩
  case inr =>
    refine (runsTo_compare_repeated (x := fun _ => s.reg .si) (exec_scas s w) hr hm rfl ?_ ?_ hgo hend).mono ?_
    · intro k hk t ht
      have hkn : k < n := by omega
      rw [State.scasPair, ht.dstElement]
      exact Prod.ext ht.readAcc (readMem_of_plain_congr (hdst k hkn) ht.mem)
    · intro k t ht
      have hsi : t.reg .si = s.reg .si := ht.reg_si
      exact ⟨_, hsi ▸ t.scasStep_eq w⟩
    · rintro t ⟨hcx, hdi, -, hflags⟩
      exact ⟨hcx, hdi, nofun, hflags⟩

end

section
/-! PROOFS. The shifts and rotates in all their forms (45_shift_rotate R280 to R287, R289). -/

namespace Sys2Proof.Machine

variable {i : Instr} {s : State} {len n : Nat}

/-! ### The flags a shift or rotate sets (R289) -/

section

variable (op : ShiftOp) (d : BitVec n) (cf : Bool) (c0 draw : Nat)

theorem shiftFlags_get_other (f : Flags) (x : Flag) (hx : x ∉ shiftChanged op) :
    (shiftFlags op d cf c0 draw f).get x = f.get x := by
  cases x with
  | cf | of => exact absurd hx (by simp [shiftChanged])
  | af | tf | intf | df => cases op <;> rfl
  | sf | zf | pf =>
    cases op with
    | rol | ror | rcl | rcr => rfl
    | shl | shr | sar => exact absurd hx (by decide)

theorem shiftFlags_get_congr (f g : Flags) (x : Flag) (hx : x ∈ shiftChanged op) :
    (shiftFlags op d cf c0 draw f).get x = (shiftFlags op d cf c0 draw g).get x := by
  cases x with
  | cf | of => rfl
  | af | tf | intf | df => cases op <;> exact absurd hx (by decide)
  | sf | zf | pf =>
    cases op with
    | rol | ror | rcl | rcr => exact absurd hx (by decide)
    | shl | shr | sar => rfl

theorem shiftDefined_subset : shiftDefined op c0 ⊆ shiftChanged op := by
  unfold shiftDefined shiftChanged
  split <;> simp

end

/-- A meaning that is the common operation on a location. -/
theorem shiftRuns_shift {op : ShiftOp} {w : Width} {l : Loc} {c0 : Nat} (hm : s.mem.wf memSize = true)
    (h : exec i s = s.shift op w l c0 len) : ShiftRuns i s op w l c0 len := by
  refine ⟨fun hc => ?_, fun hc => ?_⟩
  · rw [State.shift, if_pos hc] at h
    exact jumpsTo_advance h
  · rw [State.shift, if_neg hc] at h
    obtain ⟨hstored, hrefused⟩ := storesTo_thenFlags hm h (shiftFlags_get_other op _ _ _ _) (shiftFlags_get_congr op _ _ _ _)
    refine ⟨fun hok => (hstored hok).mono ?_, hrefused⟩
    rintro t ⟨hholds, hflags, hframe⟩
    exact ⟨hholds, fun x hx => hflags x (shiftDefined_subset op c0 hx), hframe⟩

/-! ### Counts (R280) -/

theorem maskedCount_eq_mod (b : Byte) : maskedCount b = b.toNat % 32 := Nat.and_two_pow_sub_one_eq_mod b.toNat 5

theorem State.shiftCount_cl (s : State) : s.shiftCount .cl = (s.reg .cx).toNat % 32 := by
  have hcl : (s.reg8 1).toNat = (s.reg .cx).toNat % 2 ^ 8 := BitVec.toNat_setWidth 8 (s.reg .cx)
  rw [State.shiftCount, maskedCount_eq_mod, hcl]
  omega

section

variable (op : ShiftOp) (w : Width) (count : ShiftCount) (rm : RM) (imm : Byte) (s : State)

theorem exec_shiftRm : exec (.shiftRm op w count rm) s = s.shiftRm op w count rm := by cases op <;> rfl

theorem exec_shiftRmImm8 : exec (.shiftRmImm8 op w rm imm) s = s.shiftRmImm8 op w rm imm := by cases op <;> rfl

end

end Sys2Proof.Machine

open Sys2Proof Sys2Proof.Machine

/-- Settles O46: each form is the common operation on the location of its operand, by its masked count. -/
theorem shiftForms : Obligations.ShiftForms := by
  unfold Obligations.ShiftForms
  intro s op w rm imm hm
  exact ⟨shiftRuns_shift hm (exec_shiftRm op w .one rm s),
    s.shiftCount_cl ▸ shiftRuns_shift hm (exec_shiftRm op w .cl rm s),
    maskedCount_eq_mod imm ▸ shiftRuns_shift hm (exec_shiftRmImm8 op w rm imm s)⟩

end

section
/-! PROOFS. The results and flags of the shifts and rotates for every count (45_shift_rotate R281 to R287, R289): a rotate moves the
bits round by its count modulo their number, and `RCL` and `RCR` are rotates of the value with the carry above it. -/

namespace Sys2Proof.Machine

variable {n i : Nat}

/-! ### Rotates bit by bit -/

section

variable (x : BitVec n) (r : Nat) (hi : i < n)
include hi

theorem getLsbD_rotateRight_eq : (x.rotateRight r).getLsbD i = x.getLsbD ((i + r) % n) := by
  have hr : r % n < n := Nat.mod_lt r (Nat.zero_lt_of_lt hi)
  rw [BitVec.getLsbD_rotateRight, Nat.add_mod_eq_ite, Nat.mod_eq_of_lt hi]
  by_cases hlt : i < n - r % n
  · rw [decide_eq_true hlt, cond_true, if_neg (by omega), Nat.add_comm]
  · rw [decide_eq_false hlt, cond_false, decide_eq_true hi, Bool.true_and, if_pos (by omega)]
    congr 1
    omega

/-- A rotation left brings bit `i` where a rotation right takes it from. -/
theorem getLsbD_rotateLeft_add_mod : (x.rotateLeft r).getLsbD ((i + r) % n) = x.getLsbD i := by
  have hr : r % n < n := Nat.mod_lt r (Nat.zero_lt_of_lt hi)
  rw [BitVec.getLsbD_rotateLeft, Nat.add_mod_eq_ite, Nat.mod_eq_of_lt hi]
  by_cases hle : n ≤ i + r % n
  · rw [if_pos hle, decide_eq_true (by omega), cond_true]
    congr 1
    omega
  · rw [if_neg hle, decide_eq_false (by omega), decide_eq_true (by omega), cond_false, Bool.true_and, Nat.add_sub_cancel]

/-- So bit `i` comes from `r` places below, counted from any multiple of the number of bits. -/
theorem getLsbD_rotateLeft_eq {k : Nat} (hk : n ∣ k) (hr : r ≤ k) :
    (x.rotateLeft r).getLsbD i = x.getLsbD ((i + k - r) % n) := by
  have hback : ((i + k - r) % n + r) % n = i := by
    rw [Nat.mod_add_mod, Nat.sub_add_cancel (by omega), ← Nat.add_mod_mod, Nat.mod_eq_zero_of_dvd hk, Nat.add_zero,
      Nat.mod_eq_of_lt hi]
  rw [← getLsbD_rotateLeft_add_mod x r (Nat.mod_lt (i + k - r) (Nat.zero_lt_of_lt hi)), hback]

end

theorem getLsbD_cons_of_lt (b : Bool) (x : BitVec n) (hi : i < n) : (BitVec.cons b x).getLsbD i = x.getLsbD i := by
  rw [BitVec.getLsbD_cons, if_neg hi.ne]

/-! ### Results and carries (R281 to R287) -/

section

variable (d : BitVec n) (cf : Bool) (c0 : Nat)

theorem shiftValue_rol : shiftValue .rol d cf c0 = d.rotateLeft c0 := rfl

theorem shiftValue_ror : shiftValue .ror d cf c0 = d.rotateRight c0 := rfl

theorem cons_shiftCarry_rcl : BitVec.cons (shiftCarry .rcl d cf c0) (shiftValue .rcl d cf c0) = (BitVec.cons cf d).rotateLeft c0 :=
  BitVec.cons_msb_setWidth (rclPair d cf c0)

theorem cons_shiftCarry_rcr : BitVec.cons (shiftCarry .rcr d cf c0) (shiftValue .rcr d cf c0) = (BitVec.cons cf d).rotateRight c0 :=
  BitVec.cons_msb_setWidth (rcrPair d cf c0)

theorem toNat_shiftValue_shl : (shiftValue .shl d cf c0).toNat = d.toNat * 2 ^ c0 % 2 ^ n := by
  rw [shiftValue, BitVec.toNat_shiftLeft, Nat.shiftLeft_eq]

theorem toNat_shiftValue_shr : (shiftValue .shr d cf c0).toNat = d.toNat / 2 ^ c0 := by
  rw [shiftValue, BitVec.toNat_ushiftRight, Nat.shiftRight_eq_div_pow]

theorem toInt_shiftValue_sar : (shiftValue .sar d cf c0).toInt = d.toInt / 2 ^ c0 := by
  rw [shiftValue, BitVec.toInt_sshiftRight, Int.shiftRight_eq_div_pow, Nat.cast_pow, Nat.cast_ofNat]

end

/-! ### Flags (R289) -/

/-- After a count of 1 each rule of `OF` says whether the top bit changed: the rules of the rotates and of `SHL` compare the top bit of
the result with the place where the shift has brought the top bit of the operand. -/
theorem shiftOverflow_one (hn : 1 < n) (op : ShiftOp) (d : BitVec n) (cf : Bool) :
    shiftOverflow op d (shiftValue op d cf 1) (shiftCarry op d cf 1) = ((shiftValue op d cf 1).msb ^^ d.msb) := by
  have htop : d.msb = d.getLsbD (n - 1) := d.msb_eq_getLsbD_last
  cases op with
  | rol =>
    have hlow : (shiftValue .rol d cf 1).getLsbD 0 = d.msb := by
      rw [shiftValue_rol, getLsbD_rotateLeft_eq d 1 (Nat.zero_lt_of_lt hn) (dvd_refl n) hn.le, htop, Nat.zero_add,
        Nat.mod_eq_of_lt (by omega)]
    exact congrArg (_ ^^ ·) hlow
  | ror =>
    have hnext : (shiftValue .ror d cf 1).getLsbD (n - 2) = d.msb := by
      rw [shiftValue_ror, getLsbD_rotateRight_eq d 1 (by omega), htop, Nat.mod_eq_of_lt (by omega)]
      congr 1
      omega
    exact congrArg (_ ^^ ·) hnext
  | rcl =>
    have hcarry : shiftCarry .rcl d cf 1 = d.msb := by
      have h := getLsbD_rotateLeft_add_mod (BitVec.cons cf d) 1 (i := n - 1) (by omega)
      rwa [← cons_shiftCarry_rcl, Nat.sub_add_cancel hn.le, Nat.mod_eq_of_lt n.lt_succ_self, BitVec.getLsbD_cons, if_pos rfl,
        getLsbD_cons_of_lt _ _ (by omega), ← htop] at h
    exact congrArg (_ ^^ ·) hcarry
  | rcr =>
    have hnext : (shiftValue .rcr d cf 1).getLsbD (n - 2) = d.msb := by
      have h := getLsbD_rotateRight_eq (BitVec.cons cf d) 1 (i := n - 2) (by omega)
      rw [← cons_shiftCarry_rcr, getLsbD_cons_of_lt _ _ (by omega), Nat.mod_eq_of_lt (by omega),
        getLsbD_cons_of_lt _ _ (by omega)] at h
      rw [h, htop]
      congr 1
      omega
    exact congrArg (_ ^^ ·) hnext
  | shl =>
    have hcarry : shiftCarry .shl d cf 1 = d.msb := by rw [shiftCarry, if_pos hn.le, htop]
    exact congrArg (_ ^^ ·) hcarry
  | shr =>
    have hmsb : (shiftValue .shr d cf 1).msb = false := by simp [shiftValue]
    rw [hmsb, Bool.false_xor]
    rfl
  | sar =>
    have hmsb : (shiftValue .sar d cf 1).msb = d.msb := BitVec.msb_sshiftRight
    rw [hmsb, Bool.xor_self]
    rfl

section

variable (op : ShiftOp) (d : BitVec n) (cf : Bool) (c0 draw : Nat) (f : Flags)

theorem shiftFlags_CF : (shiftFlags op d cf c0 draw f).CF = shiftCarry op d cf c0 := rfl

theorem shiftFlags_AF : (shiftFlags op d cf c0 draw f).AF = f.AF :=
  shiftFlags_get_other op d cf c0 draw f .af (by cases op <;> decide)

theorem shiftFlags_SZP (hop : shiftSetsSZP op = true) :
    (shiftFlags op d cf c0 draw f).SF = (shiftValue op d cf c0).msb ∧
      (shiftFlags op d cf c0 draw f).ZF = decide ((shiftValue op d cf c0).toNat = 0) ∧
      (shiftFlags op d cf c0 draw f).PF = parity8 ((shiftValue op d cf c0).setWidth 8) := by
  have hzero : (shiftValue op d cf c0 == 0#n) = decide ((shiftValue op d cf c0).toNat = 0) :=
    beq_eq_decide_of_iff (BitVec.toNat_inj.symm.trans (by rw [BitVec.toNat_ofNat, Nat.zero_mod]))
  rw [shiftFlags, if_pos hop]
  exact ⟨rfl, hzero, rfl⟩

end

end Sys2Proof.Machine

open Sys2Proof Sys2Proof.Machine

/-- Settles O47: both 32 and 4 * (n + 1) are multiples of the number of bits that turn, and no count is larger. -/
theorem shiftRules : Obligations.ShiftRules := by
  unfold Obligations.ShiftRules
  intro f w d cf c0 draw _ hc
  have hn : 1 < w.bits := Nat.lt_trans (by decide) (four_lt_bits w)
  have hturn : w.bits ∣ 32 := by cases w <;> decide
  have hcover : c0 ≤ 4 * (w.bits + 1) := by cases w <;> simp only [Width.bits] <;> omega
  refine ⟨fun i hi => ?rol, rfl, fun i hi => ?ror, BitVec.msb_eq_getLsbD_last _, fun i hi => ?rcl, fun i hi => ?rcr,
    toNat_shiftValue_shl d cf c0, Bool.if_false_right _ _, toNat_shiftValue_shr d cf c0, Bool.if_false_right _ _,
    toInt_shiftValue_sar d cf c0, rfl,
    fun op => ⟨fun h1 => ?overflow, shiftFlags_AF op d cf c0 draw f, shiftFlags_SZP op d cf c0 draw f⟩⟩
  case rol =>
    rw [shiftValue_rol]
    exact getLsbD_rotateLeft_eq d c0 hi hturn (by omega)
  case ror =>
    rw [shiftValue_ror]
    exact getLsbD_rotateRight_eq d c0 hi
  case rcl =>
    rw [shiftFlags_CF, cons_shiftCarry_rcl]
    exact getLsbD_rotateLeft_eq _ c0 (Nat.lt_succ_of_le hi) (dvd_mul_left _ 4) hcover
  case rcr =>
    rw [shiftFlags_CF, cons_shiftCarry_rcr]
    exact getLsbD_rotateRight_eq _ c0 (Nat.lt_succ_of_le hi)
  case overflow =>
    subst h1
    exact shiftOverflow_one hn op d cf

end

section
/-! PROOFS. Loops and jumps (46_control_transfer R300 to R309), near calls (R310, R312), returns (R314 to R317) and `IRET` (R321). -/

namespace Sys2Proof.Machine

variable {i : Instr} {s t : State} {len : Nat}

/-! ### Targets taken as they are -/

theorem State.goTo_eq (s : State) (off : Word) : s.goTo off = .next { s with IP := off } := s.setIP_toNat off

theorem State.withReturn_of_not_fits (h : ¬s.Fits len) (k : Word → Result) : s.withReturn len k = .fault .runaway := if_neg h

/-! ### Near calls (R310, R312) -/

section

variable {k : State → Result} (h : exec i s = s.withReturn len fun ret => andThen (s.push16 ret) k)
include h

/-- A near call whose return address can be pushed ends as its transfer does after the push. -/
theorem nearCall_pushes (hm : s.mem.wf memSize = true) (hf : s.Fits len)
    (hc : canStore .word (s.stackBelow 2) (s.IP + BitVec.ofNat 16 len) = true) :
    ∃ t, exec i s = k t ∧ t.IP = s.IP ∧ Pushes s t (s.IP + BitVec.ofNat 16 len) := by
  refine ⟨_, ?_, ?_, pushes_putMem hm hc⟩
  · rw [h, State.withReturn_of_fits hf, State.push16_of_canStore hc, andThen_next]
  · rw [State.putMem_IP, State.setReg_IP]

theorem nearCall_refused (hf : s.Fits len) (hc : canStore .word (s.stackBelow 2) (s.IP + BitVec.ofNat 16 len) = false) :
    exec i s = .refused .breaksPageInvariant := by
  rw [h, State.withReturn_of_fits hf, State.push16_of_not_canStore hc, andThen_refused]

theorem nearCall_runaway (hf : ¬s.Fits len) : exec i s = .fault .runaway := h.trans (State.withReturn_of_not_fits hf _)

end

/-! ### Pops (20_memory R77) -/

theorem State.stackTop_eq (s : State) : s.stackTop = s.readMem .word (s.stackAt 0) := by
  simp [State.stackTop, State.stackAddr, State.stackAt]

theorem State.pop16_pop16 (s : State) : s.pop16.pop16 = s.setReg .sp (s.reg .sp + 4) := by
  rw [State.pop16_eq, State.pop16_eq, State.setReg_setReg, State.reg_setReg_same, BitVec.add_assoc]
  rfl

theorem exec_retImm16 (imm : Word) (s : State) :
    exec (.retImm16 imm) s = (s.setReg .sp (s.reg .sp + 2 + imm)).goTo s.stackTop := by
  show (s.pop16.release imm).goTo s.stackTop = _
  rw [State.release, State.pop16_eq, State.setReg_setReg, State.reg_setReg_same]
  rfl

theorem exec_retf (s : State) :
    exec .retf s = ((s.setReg .sp (s.reg .sp + 4)).setReg .cs s.pop16.stackTop).goTo s.stackTop := by
  rw [← s.pop16_pop16]
  rfl

theorem exec_retfImm16 (imm : Word) (s : State) :
    exec (.retfImm16 imm) s = ((s.setReg .sp (s.reg .sp + 4 + imm)).setReg .cs s.pop16.stackTop).goTo s.stackTop := by
  show ((s.pop16.pop16.setReg .cs s.pop16.stackTop).release imm).goTo s.stackTop = _
  rw [s.pop16_pop16]
  rfl

theorem wordBytes_eq (v : Word) : wordBytes v = [v.extractLsb' 0 8, v.extractLsb' 8 8] := by
  rw [wordBytes, BitVec.setWidth_ushiftRight_eq_extractLsb, BitVec.setWidth_eq_extractLsb' (by decide)]

end Sys2Proof.Machine

open Sys2Proof Sys2Proof.Machine

/-- Settles O28: each is a branch of two bytes, from the state with `CX` lowered but for `JCXZ`. -/
theorem loops : Obligations.Loops := by
  unfold Obligations.Loops
  rintro s s' rel rfl
  refine ⟨⟨rfl, jumpsOn_branch (taken := s.decCX.reg .cx != 0 && !s.flags.ZF) rfl rfl ?loopne⟩,
    ⟨rfl, jumpsOn_branch (taken := s.decCX.reg .cx != 0 && s.flags.ZF) rfl rfl ?loope⟩,
    ⟨rfl, jumpsOn_branch (taken := s.decCX.reg .cx != 0) rfl rfl ?loop⟩,
    rfl, jumpsOn_branch (taken := s.reg .cx == 0) rfl rfl beq_iff_eq⟩
  case loopne => rw [Bool.and_eq_true, bne_iff_ne, Bool.not_eq_true']; rfl
  case loope => rw [Bool.and_eq_true, bne_iff_ne]; rfl
  case loop => exact bne_iff_ne

/-- Settles O29: a relative jump is `SetIP` of its exact target; a word is always a target in range. -/
theorem jumps : Obligations.Jumps := by
  unfold Obligations.Jumps
  intro s rel8 rel16 off seg rm m
  exact ⟨jumpsTo_setIP (s.jump_eq 2 rel8.toInt), jumpsTo_setIP (s.jump_eq 3 rel16.toInt), State.goTo_eq _ off,
    State.goTo_eq s _, State.goTo_eq _ _⟩

/-- Settles O30: both are a push of the return address, then `SetIP` of a target that does not depend on the push. -/
theorem nearCalls : Obligations.NearCalls := by
  unfold Obligations.NearCalls
  intro s rel rm hm
  refine ⟨fun hf hc => ?relative, nearCall_refused (len := 3) rfl, nearCall_runaway rfl,
    fun hf hc => ?absolute, nearCall_refused (len := 2 + rm.dispLen) rfl, nearCall_runaway rfl⟩
  case relative =>
    obtain ⟨t, hexec, hip, hpush⟩ := nearCall_pushes (i := .callRel16 rel) (len := 3) rfl hm hf hc
    have hjump : exec (.callRel16 rel) s = t.setIP (s.IP.toNat + 3 + rel.toInt) := by
      rw [hexec, State.jump_eq, hip]
      rfl
    exact ⟨fun hr => ⟨_, hjump.trans (State.setIP_of_range hr), rfl, hpush⟩,
      fun hr => hjump.trans (State.setIP_of_not_range hr)⟩
  case absolute =>
    obtain ⟨t, hexec, -, hpush⟩ := nearCall_pushes (i := .callRm16 rm) rfl hm hf hc
    exact ⟨_, hexec.trans (t.goTo_eq _), rfl, hpush⟩

/-- Settles O32: one pop or two, then the target that was on top of the stack. -/
theorem returns : Obligations.Returns := by
  unfold Obligations.Returns
  intro s imm
  refine ⟨⟨rfl, congrArg (_ :: ·) (wordBytes_eq imm), rfl, congrArg (_ :: ·) (wordBytes_eq imm)⟩, ?_⟩
  rw [← s.stackTop_eq]
  exact ⟨s.pop16.goTo_eq s.stackTop, (exec_retImm16 imm s).trans (State.goTo_eq _ _), (exec_retf s).trans (State.goTo_eq _ _),
    (exec_retfImm16 imm s).trans (State.goTo_eq _ _)⟩

/-- Settles O23: the state after `IRET` is one update of `SP`, `CS`, the flags and `IP`. -/
theorem interruptReturn : Obligations.InterruptReturn := by
  unfold Obligations.InterruptReturn
  intro s
  refine ⟨rfl, _, s.interruptReturn_eq, s.stackTop_eq, rfl, rfl, rfl, ?_⟩
  have hregs := frame_setReg_setReg s .sp .cs (s.reg .sp + 6#16) s.pop16.stackTop
  exact (hregs.trans (frame_setFlags fun x hx => absurd (mem_allFlags x) hx)).mono
    (by rw [List.append_nil]; exact List.perm_append_comm.subset) (List.Subset.refl _)

end

section
/-! PROOFS. Pushes to ordinary memory, far calls (46_control_transfer R311, R313), `deliver` (60_exceptions R401) and the software
interrupts (R318 to R320). -/

namespace Sys2Proof.Machine

variable {s : State} {m : Memory} {a : Addr}

/-! ### Pushes to ordinary memory (20_memory R77) -/

/-- The state with `m` as its memory. -/
def State.withMem (s : State) (m : Memory) : State := { s with mem := m }

/-- The state with `n` bytes pushed, `m` being its memory. -/
def State.withPushed (s : State) (n : Word) (m : Memory) : State := (s.withMem m).setReg .sp (s.reg .sp - n)

section

variable (s : State) (n : Word) (m : Memory)

@[simp] theorem State.withPushed_IP : (s.withPushed n m).IP = s.IP := rfl
@[simp] theorem State.withPushed_cs : (s.withPushed n m).reg .cs = s.reg .cs := rfl

theorem State.withPushed_zero : s.withPushed 0#16 s.mem = s := by
  rw [State.withPushed, BitVec.sub_zero]
  exact s.setReg_reg .sp

theorem State.withPushed_stackBelow (k : Word) : (s.withPushed n m).stackBelow k = s.stackBelow (n + k) := by
  rw [State.stackBelow, State.stackBelow, ← BitVec.sub_sub]
  rfl

end

theorem frame_withPushed {A : List Addr} (h : Frame s (s.withMem m) A []) (n : Word) :
    Frame s (s.withPushed n m) (A ++ Reg.sp.bytes) [] :=
  h.trans (frame_setReg_bytes (s.withMem m) .sp (s.reg .sp - n))

theorem append_right_comm_subset {α : Type} (l₁ l₂ l₃ : List α) : l₁ ++ l₂ ++ l₃ ⊆ l₁ ++ l₃ ++ l₂ := by
  rw [List.append_assoc, List.append_assoc]
  exact (List.perm_append_comm.append_left l₁).subset

/-- `m'` is memory `m` after a store of the word `v` at `a`, the rest of the state being as in `s`. -/
structure WordStored (s : State) (m : Memory) (a : Addr) (v : Word) (m' : Memory) : Prop where
  wf : m'.wf memSize = true
  word : (s.withMem m').readMem .word a = v
  frame : Frame (s.withMem m) (s.withMem m') (bytesAt .word a) []

/-- A store of a word to ordinary memory does not depend on the rest of the state. -/
theorem exists_wordStored (s : State) (hm : m.wf memSize = true) (hp : Plain .word a) (v : Word) :
    ∃ m', WordStored s m a v m' ∧ ∀ t : State, t.mem = m → t.putMem .word a v = t.withMem m' := by
  have hput (t : State) (ht : t.mem = m) :
      t.putMem .word a v = t.withMem ((m.set a.toNat (byteOf false v)).set (a + 1#20).toNat (byteOf true v)) := by
    rw [State.putMem, State.putByte_plain hp.1, State.putByte_plain hp.2, ht]
    rfl
  have hframe := frame_putMem (s := s.withMem m) .word a v hm
  have hword := readMem_putMem_of_plain (s := s.withMem m) hm hp v
  have hwf := State.putMem_mem_wf (s := s.withMem m) (w := .word) (a := a) (v := v) hm
  rw [hput _ rfl] at hframe hword hwf
  exact ⟨_, ⟨hwf, hword, hframe⟩, hput⟩

/-- One more push, after which `k` bytes are pushed. -/
theorem State.push16_withPushed {n k : Word} (hk : n + 2#16 = k) (hm : m.wf memSize = true) (hp : Plain .word (s.stackBelow k))
    (v : Word) :
    ∃ m', (s.withPushed n m).push16 v = .next (s.withPushed k m') ∧ WordStored s m (s.stackBelow k) v m' := by
  subst hk
  obtain ⟨m', hstored, hput⟩ := exists_wordStored s hm hp v
  have hbelow := s.withPushed_stackBelow n m 2#16
  have hsp : (s.withPushed n m).setReg .sp ((s.withPushed n m).reg .sp - 2#16) = s.withPushed (n + 2#16) m := by
    rw [State.withPushed, State.setReg_setReg, State.reg_setReg_same, BitVec.sub_sub]
    rfl
  refine ⟨m', ?_, hstored⟩
  rw [State.push16_eq, hsp]
  exact (congrArg (State.writeMem _ .word · v) hbelow).trans
    ((State.writeMem_of_canStore (canStore_of_plain hp v)).trans (congrArg _ (hput _ rfl)))

/-- Two words of which the second is pushed right after the first, or after one between them, lie apart. -/
theorem State.stackBelow_disjoint (s : State) (n k : Word) (hk : k = n + 2#16 ∨ k = n + 4#16) :
    ∀ b ∈ bytesAt .word (s.stackBelow n), b ∉ bytesAt .word (s.stackBelow k) := by
  have hx := (s.reg .sp - n).isLt
  have hsub : (s.reg .sp - k).toNat = ((s.reg .sp - n).toNat + (2 ^ 16 - 2)) % 2 ^ 16 ∨
      (s.reg .sp - k).toNat = ((s.reg .sp - n).toNat + (2 ^ 16 - 4)) % 2 ^ 16 := by
    refine hk.imp (fun h => ?_) fun h => ?_ <;> rw [h, ← BitVec.sub_sub, BitVec.toNat_sub, Nat.add_comm] <;> rfl
  simp only [bytesAt, List.mem_cons, List.not_mem_nil, or_false, not_or, State.stackBelow, lin,
    ← BitVec.toNat_inj, BitVec.toNat_add, BitVec.toNat_ofNat]
  intro b hb
  omega

/-- Two words pushed to ordinary memory stand there, and nothing else changes but `SP`. -/
theorem State.push16_push16_plain (hm : s.mem.wf memSize = true) (h2 : Plain .word (s.stackBelow 2))
    (h4 : Plain .word (s.stackBelow 4)) (u v : Word) :
    ∃ m m', s.push16 u = .next (s.withPushed 2 m) ∧ (s.withPushed 2 m).push16 v = .next (s.withPushed 4 m') ∧
      m'.wf memSize = true ∧ (s.withMem m').readMem .word (s.stackBelow 2) = u ∧
      (s.withMem m').readMem .word (s.stackBelow 4) = v ∧
      Frame s (s.withMem m') (bytesAt .word (s.stackBelow 2) ++ bytesAt .word (s.stackBelow 4)) [] := by
  obtain ⟨m, hpush, hstored⟩ := State.push16_withPushed (s := s) (n := 0#16) (by decide) hm h2 u
  obtain ⟨m', hpush', hstored'⟩ := State.push16_withPushed (n := 2) (by decide) hstored.wf h4 v
  rw [State.withPushed_zero] at hpush
  exact ⟨m, m', hpush, hpush', hstored'.wf,
    (hstored'.frame.readMem_eq (s.stackBelow_disjoint 2 4 (by decide))).trans hstored.word, hstored'.word,
    hstored.frame.trans hstored'.frame⟩

/-! ### Far calls (R311, R313) -/

theorem State.callFar_of_fits {len : Nat} (hf : s.Fits len) (seg off : Word) :
    s.callFar len seg off =
      andThen (s.push16 (s.reg .cs)) fun a =>
      andThen (a.push16 (s.IP + BitVec.ofNat 16 len)) fun b => .next { b.setReg .cs seg with IP := off } := by
  simp only [State.callFar, State.withReturn_of_fits hf, State.goToFar, State.goTo_eq]

/-! ### `deliver` (60_exceptions R401) -/

theorem plain_word_ofNat_of_lt {k : Nat} (h : k + 1 < 0xF0000) : Plain .word (BitVec.ofNat 20 k) := by
  refine ⟨cellAt_ofNat_outside (by omega) (.inl (by omega)), ?_⟩
  have hsucc := cellAt_ofNat_outside (o := k + 1) (by omega) (.inl h)
  rwa [BitVec.ofNat_add] at hsucc

/-- The words of a vector-table entry are ordinary memory (10_state R34). -/
theorem plain_vector (v : Byte) :
    Plain .word (BitVec.ofNat 20 (4 * v.toNat)) ∧ Plain .word (BitVec.ofNat 20 (4 * v.toNat + 2)) := by
  have hv := v.isLt
  exact ⟨plain_word_ofNat_of_lt (by omega), plain_word_ofNat_of_lt (by omega)⟩

theorem frame_enterVector (s : State) (v : Byte) : Frame s (s.enterVector v) Reg.cs.bytes [.tf, .intf] := by
  refine (frame_setReg_bytes s .cs (s.readMem .word (vectorAddr v + 2#20))).trans (frame_setFlags fun x hx => ?_)
  cases x with
  | tf | intf => exact absurd hx (by decide)
  | cf | pf | af | zf | sf | df | of => rfl

/-- `CS:IP` after `deliver` is the vector-table entry as it stands then (60_exceptions R401). -/
theorem enterVector_entry (s : State) (v : Byte) :
    (s.enterVector v).IP = (s.enterVector v).readMem .word (BitVec.ofNat 20 (4 * v.toNat)) ∧
      (s.enterVector v).reg .cs = (s.enterVector v).readMem .word (BitVec.ofNat 20 (4 * v.toNat + 2)) := by
  obtain ⟨hoff, hseg⟩ := plain_vector v
  rw [readMem_of_plain_congr (t := s.enterVector v) (s := s) hoff rfl,
    readMem_of_plain_congr (t := s.enterVector v) (s := s) hseg rfl, BitVec.ofNat_add]
  exact ⟨rfl, State.reg_setReg_same _ .cs _⟩

/-- Where the stack is ordinary memory, `deliver` completes. -/
theorem deliver_delivered (hm : s.mem.wf memSize = true) (hp : PlainStack s) (v : Byte) :
    ∃ t, s.deliver v = .next t ∧ Delivered s t v s.IP := by
  obtain ⟨h2, h4, h6⟩ := hp
  obtain ⟨m1, m2, hpush1, hpush2, hwf2, hflags, hcs, hframe2⟩ := State.push16_push16_plain hm h2 h4 s.flags.pack (s.reg .cs)
  obtain ⟨m3, hpush3, hstored⟩ := State.push16_withPushed (n := 4) (by decide) hwf2 h6 s.IP
  have hexec : s.deliver v = .next ((s.withPushed 6 m3).enterVector v) := by
    simp only [State.deliver, hpush1, andThen_next, State.withPushed_cs, hpush2, State.withPushed_IP, hpush3]
  have hframe := (frame_withPushed (hframe2.trans hstored.frame) 6).trans (frame_enterVector _ v)
  have hread {a : Addr} (ha : Plain .word a) :
      ((s.withPushed 6 m3).enterVector v).readMem .word a = (s.withMem m3).readMem .word a := readMem_of_plain_congr ha rfl
  obtain ⟨hip, hentry⟩ := enterVector_entry (s.withPushed 6 m3) v
  refine ⟨_, hexec, (hread h2).trans ?pack, (hread h4).trans ?seg, (hread h6).trans hstored.word, ?sp, hip, hentry, rfl, rfl,
    hframe.mono (append_right_comm_subset _ _ _) (List.Subset.refl _)⟩
  case pack => exact (hstored.frame.readMem_eq (s.stackBelow_disjoint 2 6 (by decide))).trans hflags
  case seg => exact (hstored.frame.readMem_eq (s.stackBelow_disjoint 4 6 (by decide))).trans hcs
  case sp => exact (State.reg_setReg_other _ _ (by decide)).trans (State.reg_setReg_same _ .sp _)

/-! ### Software interrupts (R318 to R320) -/

section

variable {len : Nat} (v : Byte)

theorem State.interrupt_of_fits (h : s.Fits len) : s.interrupt len v = { s with IP := s.IP + BitVec.ofNat 16 len }.deliver v := by
  rw [State.interrupt, State.advance_of_fits h, andThen_next]

theorem State.interrupt_of_not_fits (h : ¬s.Fits len) : s.interrupt len v = .fault .runaway := by
  rw [State.interrupt, State.advance_of_not_fits h, andThen_fault]

theorem State.interrupt_delivered (hm : s.mem.wf memSize = true) (hp : PlainStack s) (h : s.Fits len) :
    ∃ t, s.interrupt len v = .next t ∧ Delivered s t v (s.IP + BitVec.ofNat 16 len) := by
  rw [State.interrupt_of_fits v h]
  exact deliver_delivered (s := { s with IP := s.IP + BitVec.ofNat 16 len }) hm hp v

end

theorem exec_int (s : State) (v : Byte) : exec (.int v) s = s.interrupt 2 v := rfl

theorem exec_int3 (s : State) : exec .int3 s = s.interrupt 1 3 := rfl

theorem exec_into_of_overflow (h : s.flags.OF = true) : exec .into s = s.interrupt 1 4 := if_pos h

theorem exec_into_of_not_overflow (h : s.flags.OF = false) : exec .into s = s.advance 1 := if_neg (Bool.eq_false_iff.1 h)

theorem exec_into_of_not_fits (h : ¬s.Fits 1) : exec .into s = .fault .runaway := by
  cases hof : s.flags.OF with
  | true => rw [exec_into_of_overflow hof, State.interrupt_of_not_fits 4 h]
  | false => rw [exec_into_of_not_overflow hof, State.advance_of_not_fits h]

end Sys2Proof.Machine

open Sys2Proof Sys2Proof.Machine

/-- Settles O31: two pushes, then `CS:IP`, which were read before them; on ordinary memory the second push leaves the first word. -/
theorem farCalls : Obligations.FarCalls := by
  unfold Obligations.FarCalls
  intro s i len off seg hi
  have hexec : exec i s = s.callFar len seg off := by
    obtain ⟨rfl, rfl⟩ | ⟨m, rfl, rfl, rfl, rfl⟩ := hi <;> rfl
  rw [hexec]
  refine ⟨fun hf => State.callFar_of_fits hf seg off, fun hf hm h2 h4 => ?_, fun hf => State.withReturn_of_not_fits hf _⟩
  obtain ⟨m, m', hpush, hpush', -, hcs, hret, hframe⟩ :=
    State.push16_push16_plain hm h2 h4 (s.reg .cs) (s.IP + BitVec.ofNat 16 len)
  have hframe' := (frame_withPushed hframe 4).trans (frame_setReg_bytes (s.withPushed 4 m') .cs seg)
  have hread {a : Addr} (ha : Plain .word a) :
      State.readMem { (s.withPushed 4 m').setReg .cs seg with IP := off } .word a = (s.withMem m').readMem .word a :=
    readMem_of_plain_congr ha rfl
  refine ⟨{ (s.withPushed 4 m').setReg .cs seg with IP := off }, ?_, rfl, State.reg_setReg_same _ .cs seg, ?_,
    (hread h2).trans hcs, (hread h4).trans hret, hframe'.mono (append_right_comm_subset _ _ _) (List.Subset.refl _)⟩
  · rw [State.callFar_of_fits hf, hpush, andThen_next, hpush', andThen_next]
  · exact (State.reg_setReg_other _ seg (by decide)).trans (State.reg_setReg_same _ .sp _)

/-- Settles O22: each is `SetIP(next)`, then `deliver`; on an ordinary stack that completes. -/
theorem softwareInterrupts : Obligations.SoftwareInterrupts := by
  unfold Obligations.SoftwareInterrupts
  intro s v
  rw [exec_int, exec_int3]
  refine ⟨⟨rfl, rfl, rfl⟩, State.interrupt_of_fits v, State.interrupt_of_fits 3, fun hf hof => ?_, fun hf hof => ?_,
    State.interrupt_of_not_fits v, fun hf => ⟨State.interrupt_of_not_fits 3 hf, exec_into_of_not_fits hf⟩, fun hm hp =>
    ⟨State.interrupt_delivered v hm hp, State.interrupt_delivered 3 hm hp, fun hf hof => ?_⟩⟩
  · exact (exec_into_of_overflow hof).trans (State.interrupt_of_fits 4 hf)
  · exact (exec_into_of_not_overflow hof).trans (State.advance_of_fits hf)
  · rw [exec_into_of_overflow hof]
    exact State.interrupt_delivered 4 hm hp hf

end

section
/-! PROOFS. The cycle around an instruction (60_exceptions R402, R418, R419): what the end of a cycle is in each of its three cases,
and what it leaves of the tick, the trap and the counters of overrides and repeats. -/

namespace Sys2Proof.Machine

variable {s t u : State} {v : Byte} {i : Instr}

/-! ### Entering a vector (R401) -/

/-- `CS:IP` is the vector-table entry of `v`, and `TF` and `IF` are clear (60_exceptions R401). -/
structure State.EnteredVector (t : State) (v : Byte) : Prop where
  ip : t.IP = t.readMem .word (BitVec.ofNat 20 (4 * v.toNat))
  cs : t.reg .cs = t.readMem .word (BitVec.ofNat 20 (4 * v.toNat + 2))
  tf : t.flags.TF = false
  intf : t.flags.IF = false

/-- Whatever the stack, a completed `deliver` entered its vector. -/
theorem enteredVector_of_deliver (h : s.deliver v = .next t) : t.EnteredVector v := by
  obtain ⟨a, -, h⟩ := andThen_eq_next.1 h
  obtain ⟨b, -, h⟩ := andThen_eq_next.1 h
  obtain ⟨c, -, h⟩ := andThen_eq_next.1 h
  obtain rfl := Host.Outcome.next.inj h
  obtain ⟨hip, hcs⟩ := enterVector_entry c v
  exact ⟨hip, hcs, rfl, rfl⟩

/-- The vector table is ordinary memory, so what the end of a cycle still sets does not matter. -/
theorem State.EnteredVector.congr (h : s.EnteredVector v) (hip : t.IP = s.IP) (hcs : t.reg .cs = s.reg .cs)
    (hf : t.flags = s.flags) (hm : t.mem = s.mem) : t.EnteredVector v where
  ip := by rw [hip, readMem_of_plain_congr (plain_vector v).1 hm, h.ip]
  cs := by rw [hcs, readMem_of_plain_congr (plain_vector v).2 hm, h.cs]
  tf := by rw [hf, h.tf]
  intf := by rw [hf, h.intf]

theorem cycleContext_of_deliver (h : s.deliver v = .next t) : t.cycleContext = s.cycleContext :=
  ends_deliver (kept_part _ fun _ _ _ _ _ _ => rfl) s v t h

theorem overrideContext_of_deliver (h : s.deliver v = .next t) : t.overrideContext = s.overrideContext :=
  ends_deliver (kept_part _ fun _ _ _ _ _ _ => rfl) s v t h

/-! ### The end of a cycle (R402) -/

theorem State.countCycle_tickDue_iff :
    s.countCycle.tickDue = true ↔
      s.countCycle.tickPending = true ∧ s.segOvrCnt = 0 ∧ s.repCnt = 0 ∧ s.flags.IF = true ∧ s.flags.TF = false := by
  simp [State.tickDue, State.countCycle, and_assoc]

/-- With `IF` clear no tick is delivered. -/
theorem State.tickStep_of_intf (h : s.flags.IF = false) : s.tickStep = .next s :=
  if_neg (by simp [State.tickDue, h])

/-- A cycle entered with `TrapShadow = 1` ends with vector 1. -/
theorem State.endOfCycle_of_trap (h : s.trapShadow = true) :
    s.endOfCycle = andThen (s.countCycle.deliver 1) fun u => .next { u with trapShadow := false, draws := u.draws + 1 } := by
  have htrap : s.countCycle.trapStep = andThen (s.countCycle.deliver 1) fun u => .next { u with trapShadow := u.flags.TF } :=
    congrArg (andThen · _) (if_pos h)
  rw [State.endOfCycle, htrap, andThen_assoc]
  cases hd : s.countCycle.deliver 1 with
  | next u =>
    obtain ⟨-, -, htf, hif⟩ := enteredVector_of_deliver hd
    simp only [andThen_next, htf, State.tickStep_of_intf (s := { u with trapShadow := false }) hif]
    rfl
  | fault _ | refused _ => rfl

theorem State.trapStep_of_not_trap (h : s.trapShadow = false) : s.trapStep = .next { s with trapShadow := s.flags.TF } := by
  rw [State.trapStep, h]
  rfl

/-- Without a trap, a tick that is due is delivered as vector 0x0A. -/
theorem State.endOfCycle_of_tickDue (h : s.trapShadow = false) (hd : s.countCycle.tickDue = true) :
    s.endOfCycle =
      andThen (s.countCycle.deliver Config.tickVector) fun u => .next { u with tickPending := false, draws := u.draws + 1 } := by
  have htf : s.flags.TF = s.trapShadow := (State.countCycle_tickDue_iff.1 hd).2.2.2.2.trans h.symm
  have htrap : s.countCycle.trapStep = .next s.countCycle := by
    rw [State.trapStep_of_not_trap (s := s.countCycle) h]
    exact congrArg (fun b => Host.Outcome.next { s.countCycle with trapShadow := b }) htf
  rw [State.endOfCycle, htrap, andThen_next, State.tickStep, if_pos hd, andThen_assoc]
  rfl

/-- Without a trap and without a tick that is due, nothing is delivered. -/
theorem State.endOfCycle_of_not_tickDue (h : s.trapShadow = false) (hd : ¬s.countCycle.tickDue = true) :
    s.endOfCycle = .next { s.countCycle with trapShadow := s.flags.TF, draws := s.draws + 1 } := by
  have htick : State.tickStep { s.countCycle with trapShadow := s.flags.TF } =
      .next { s.countCycle with trapShadow := s.flags.TF } := if_neg hd
  rw [State.endOfCycle, State.trapStep_of_not_trap (s := s.countCycle) h, andThen_next]
  exact congrArg (andThen · _) htick

/-- What every end of a cycle leaves, with the one way a request is taken back: a tick that is due enters its vector. -/
structure CycleEnded (s t : State) : Prop where
  tickCounter : t.tickCounter = (s.tickCounter + 1) % s.params.tickPeriod
  params : t.params = s.params
  trapShadow : t.trapShadow = t.flags.TF
  runState : t.runState = s.runState
  overrideContext : t.overrideContext = s.overrideContext
  pending : t.tickPending = s.countCycle.tickPending ∨ s.countCycle.tickDue = true ∧ t.EnteredVector Config.tickVector

theorem cycleEnded_of_endOfCycle (h : s.endOfCycle = .next t) : CycleEnded s t := by
  cases htrap : s.trapShadow with
  | true =>
    rw [State.endOfCycle_of_trap htrap] at h
    obtain ⟨u, hd, h⟩ := andThen_eq_next.1 h
    obtain rfl := Host.Outcome.next.inj h
    have hov := overrideContext_of_deliver hd
    have hc := cycleContext_of_deliver hd
    simp only [State.cycleContext, Prod.mk.injEq] at hc
    obtain ⟨-, hpending, hcounter, hrun, hparams⟩ := hc
    exact ⟨hcounter, hparams, (enteredVector_of_deliver hd).tf.symm, hrun, hov, .inl hpending⟩
  | false =>
    by_cases hdue : s.countCycle.tickDue = true
    · rw [State.endOfCycle_of_tickDue htrap hdue] at h
      obtain ⟨u, hd, h⟩ := andThen_eq_next.1 h
      obtain rfl := Host.Outcome.next.inj h
      have hov := overrideContext_of_deliver hd
      have hc := cycleContext_of_deliver hd
      simp only [State.cycleContext, Prod.mk.injEq] at hc
      obtain ⟨hshadow, -, hcounter, hrun, hparams⟩ := hc
      have hv := enteredVector_of_deliver hd
      exact ⟨hcounter, hparams, hshadow.trans (htrap.trans hv.tf.symm), hrun, hov,
        .inr ⟨hdue, hv.congr rfl rfl rfl rfl⟩⟩
    · rw [State.endOfCycle_of_not_tickDue htrap hdue] at h
      obtain rfl := Host.Outcome.next.inj h
      exact ⟨rfl, rfl, rfl, rfl, rfl, .inl rfl⟩

/-! ### The whole cycle (R419) -/

/-- The instruction of a cycle that answers a next state leaves the trap and tick context to the end of the cycle. -/
theorem cycle_of_step (hr : ¬(s.reg .cs = 0 ∧ s.IP = 0)) (h : step s = .next t) :
    ∃ u, u.cycleContext = s.cycleContext ∧ CycleEnded u t := by
  obtain ⟨-, ⟨h0, -⟩ | ⟨-, i, rest, -, h⟩⟩ := step_eq_next h
  · exact absurd h0 hr
  · obtain ⟨u, hi, he⟩ := andThen_eq_next.1 h
    have hu := ends_cycleContext u hi
    exact ⟨u, hu, cycleEnded_of_endOfCycle he⟩

theorem State.countCycle_tickPending_iff :
    s.countCycle.tickPending = true ↔ s.tickPending = true ∨ (s.tickCounter + 1) % s.params.tickPeriod = 0 := by
  simp only [State.countCycle, Bool.or_eq_true, beq_iff_eq]
  exact or_comm

/-- A state with the trap and tick context of `s` counts its cycle and makes its request as `s` does. -/
theorem countCycle_congr (h : u.cycleContext = s.cycleContext) :
    u.tickCounter = s.tickCounter ∧ u.params = s.params ∧ u.runState = s.runState ∧
      u.countCycle.tickPending = s.countCycle.tickPending := by
  simp only [State.cycleContext, Prod.mk.injEq] at h
  obtain ⟨-, hpending, hcounter, hrun, hparams⟩ := h
  exact ⟨hcounter, hparams, hrun, by simp only [State.countCycle, hpending, hcounter, hparams]⟩

/-! ### The counters of overrides and repeats (44_string_prefix R260 to R262) -/

theorem extendCount_eq_zero_iff {n : Nat} : extendCount n = 0 ↔ n = 0 := by
  unfold extendCount
  split <;> omega

/-- The counters after the instruction of a cycle: an override or repeat byte sets its own to 2, any other instruction leaves both one
less than before the cycle. -/
theorem counters_of_exec (h : exec i s.startCycle = .next u) :
    i.SetsCounter ∧ (u.segOvrCnt = 2 ∨ u.repCnt = 2) ∨
      ¬i.SetsCounter ∧ u.segOvrCnt = s.segOvrCnt - 1 ∧ u.repCnt = s.repCnt - 1 := by
  by_cases hi : i.SetsCounter
  · refine .inl ⟨hi, ?_⟩
    obtain ⟨sr, rfl⟩ | ⟨mode, rfl⟩ := hi
    · exact .inl (by rw [exec_segOverride_eq_next h])
    · exact .inr (by rw [exec_rep_eq_next h])
  · have hc := ends_overrideContext hi u h
    simp only [State.overrideContext, Prod.mk.injEq] at hc
    obtain ⟨hseg, -, hrep, -⟩ := hc
    exact .inr ⟨hi, hseg, hrep⟩

end Sys2Proof.Machine

open Sys2Proof Sys2Proof.Machine

/-- Settles O10: no instruction touches the trap and tick context, so the end of the cycle finds it as the cycle began. -/
theorem everyCycleCounts : Obligations.EveryCycleCounts := by
  unfold Obligations.EveryCycleCounts
  intro s t _ h0 h
  obtain ⟨u, hu, he⟩ := cycle_of_step h0 h
  obtain ⟨hcounter, hparams, -, hreq⟩ := countCycle_congr hu
  refine ⟨?_, he.params.trans hparams, he.trapShadow, fun hp => ?_⟩
  · rw [he.tickCounter, hcounter, hparams]
  · obtain hkept | ⟨-, hip, hcs, htf, hif⟩ := he.pending
    · exact .inl (by rw [hkept, hreq, State.countCycle_tickPending_iff.2 hp])
    · exact .inr ⟨hif, htf, hip, hcs⟩

/-- Settles O9: the three cases of the end of a cycle. -/
theorem endOfCycle : Obligations.EndOfCycle := by
  unfold Obligations.EndOfCycle
  intro s s1 hs1
  obtain rfl : s1 = s.countCycle := by rw [hs1, State.countCycle, Bool.or_comm]
  exact ⟨State.endOfCycle_of_trap, fun h hd => State.endOfCycle_of_tickDue h (State.countCycle_tickDue_iff.2 hd),
    fun h hd => State.endOfCycle_of_not_tickDue h (mt State.countCycle_tickDue_iff.1 hd)⟩

/-- Settles O8: neither an instruction that answers a next state nor the end of a cycle touches `RunState`. -/
theorem haltAtZero : Obligations.HaltAtZero := by
  unfold Obligations.HaltAtZero
  intro s hr
  refine ⟨fun h0 => ?_, fun h0 t h => ?_⟩
  · simp only [step, hr, if_pos h0]
  · obtain ⟨u, hu, he⟩ := cycle_of_step h0 h
    obtain ⟨-, -, hrun, -⟩ := countCycle_congr hu
    rw [he.runState, hrun, hr]

/-- Settles O7: the fetched bytes begin with those of the instruction, and decoding gives it back. -/
theorem stepRunsDecoded : Obligations.StepRunsDecoded := by
  unfold Obligations.StepRunsDecoded
  exact fun s i hi hr h0 hb => step_of_encode hi hr h0 hb

/-- Settles O12: an override or repeat byte leaves a counter at 2, any other instruction leaves both one lower; the tick waits until
both are 0. -/
theorem tickWaitsForPrefixed : Obligations.TickWaitsForPrefixed := by
  unfold Obligations.TickWaitsForPrefixed
  intro s t u i rest hr h0 hdec hi h
  have hstep : step s = u.endOfCycle := by simp only [step, hr, if_neg h0, hdec, hi, andThen_next]
  have he := cycleEnded_of_endOfCycle (hstep.symm.trans h)
  have hc := he.overrideContext
  simp only [State.overrideContext, Prod.mk.injEq] at hc
  obtain ⟨hseg, -, hrep, -⟩ := hc
  rw [hseg, hrep]
  refine ⟨fun _ _ => ?left, ?both, fun hne hp => ?waits⟩
  case left =>
    obtain ⟨hs, h2⟩ | ⟨hs, hlow⟩ := counters_of_exec hi
    · exact iff_of_true h2 hs
    · exact iff_of_false (by omega) hs
  case both =>
    obtain ⟨hs, h2⟩ | ⟨hs, hlow⟩ := counters_of_exec hi
    · exact iff_of_false (by omega) fun hb => hb.1 hs
    · exact ⟨fun _ => ⟨hs, by omega, by omega⟩, fun _ => by omega⟩
  case waits =>
    obtain ⟨-, -, -, hreq⟩ := countCycle_congr (ends_cycleContext u hi)
    obtain hkept | ⟨hdue, -⟩ := he.pending
    · exact hkept.trans (hreq.trans (State.countCycle_tickPending_iff.2 hp))
    · obtain ⟨-, hs0, hr0, -⟩ := State.countCycle_tickDue_iff.1 hdue
      exact absurd ⟨hs0, hr0⟩ hne

end

section
/-! PROOFS. `deliver` in every state (60_exceptions R401), the divide fault (R403), and `IRET` right after `deliver` (R409). -/

namespace Sys2Proof.Machine

variable {s : State} {v : Byte}

/-! ### `deliver` where the stack is ordinary memory (R401) -/

/-- On an ordinary stack `deliver` stores three words in memory, then enters the vector. -/
theorem State.deliver_of_plainStack (hm : s.mem.wf memSize = true) (hp : PlainStack s) (v : Byte) :
    ∃ m, s.deliver v = .next ((s.withPushed 6 m).enterVector v) ∧
      (s.withMem m).readMem .word (s.stackBelow 2) = s.flags.pack ∧
      (s.withMem m).readMem .word (s.stackBelow 4) = s.reg .cs ∧
      (s.withMem m).readMem .word (s.stackBelow 6) = s.IP ∧ Frame s (s.withMem m) s.threePushed [] := by
  obtain ⟨h2, h4, h6⟩ := hp
  obtain ⟨m1, m2, hpush1, hpush2, hwf2, hflags, hcs, hframe2⟩ := State.push16_push16_plain hm h2 h4 s.flags.pack (s.reg .cs)
  obtain ⟨m3, hpush3, hstored⟩ := State.push16_withPushed (n := 4) (by decide) hwf2 h6 s.IP
  refine ⟨m3, ?_, ?_, ?_, hstored.word, hframe2.trans hstored.frame⟩
  · simp only [State.deliver, hpush1, andThen_next, State.withPushed_cs, hpush2, State.withPushed_IP, hpush3]
  · exact (hstored.frame.readMem_eq (s.stackBelow_disjoint 2 6 (by decide))).trans hflags
  · exact (hstored.frame.readMem_eq (s.stackBelow_disjoint 4 6 (by decide))).trans hcs

/-! ### `IRET` right after it (R409) -/

/-- What a pop reads from an ordinary stack depends on `SS`, `SP` and memory alone. -/
theorem State.stackTop_eq_readMem {m : Memory} {k : Word} (hp : Plain .word (s.stackBelow k)) (t : State) (hm : t.mem = m)
    (hss : t.reg .ss = s.reg .ss) (hsp : t.reg .sp = s.reg .sp - k) :
    t.stackTop = (s.withMem m).readMem .word (s.stackBelow k) := by
  have haddr : t.stackAddr = s.stackBelow k := by rw [State.stackAddr, State.stackBelow, hss, hsp]
  rw [State.stackTop, haddr]
  exact readMem_of_plain_congr hp hm

/-- `deliver` on an ordinary stack changes `SP`, `CS`, the flags, `IP` and memory. -/
theorem State.enterVector_withPushed (s : State) (n : Word) (m : Memory) (v : Byte) :
    ∃ c f ip, (s.withPushed n m).enterVector v =
      { s.withMem m with regs := (s.regs.set .sp (s.reg .sp - n)).set .cs c, flags := f, IP := ip } := ⟨_, _, _, rfl⟩

/-- `IRET` where the three words that `deliver` pushed still stand restores the state but for memory. -/
theorem State.interruptReturn_enterVector {m : Memory} (hp : PlainStack s)
    (h2 : (s.withMem m).readMem .word (s.stackBelow 2) = s.flags.pack)
    (h4 : (s.withMem m).readMem .word (s.stackBelow 4) = s.reg .cs)
    (h6 : (s.withMem m).readMem .word (s.stackBelow 6) = s.IP) (v : Byte) :
    ((s.withPushed 6 m).enterVector v).interruptReturn = .next (s.withMem m) := by
  obtain ⟨hp2, hp4, hp6⟩ := hp
  obtain ⟨c, f, ip, ht⟩ := s.enterVector_withPushed 6 m v
  generalize (s.withPushed 6 m).enterVector v = t at ht
  have hss : t.reg .ss = s.reg .ss := by rw [ht]; rfl
  have hsp : t.reg .sp = s.reg .sp - 6#16 := by rw [ht]; rfl
  have hmem : t.mem = m := by rw [ht]; rfl
  have hIP : t.stackTop = s.IP := (State.stackTop_eq_readMem hp6 t hmem hss hsp).trans h6
  have hCS : t.pop16.stackTop = s.reg .cs := by
    refine (State.stackTop_eq_readMem hp4 t.pop16 hmem hss ?_).trans h4
    rw [State.pop16_eq, State.reg_setReg_same, hsp]
    bv_omega
  have hFlags : ((t.setReg .sp (t.reg .sp + 4#16)).setReg .cs (s.reg .cs)).stackTop = s.flags.pack := by
    generalize hu : (t.setReg .sp (t.reg .sp + 4#16)).setReg .cs (s.reg .cs) = u
    refine (State.stackTop_eq_readMem hp2 u ?_ ?_ ?_).trans h2 <;> rw [← hu]
    · exact hmem
    · exact hss
    · rw [State.reg_setReg_other _ _ (by decide), State.reg_setReg_same, hsp]
      bv_omega
  have hsp0 : t.reg .sp + 6#16 = s.reg .sp := by rw [hsp, BitVec.sub_add_cancel]
  rw [State.interruptReturn_eq, hIP, hCS, hFlags, packedFlags.2.2.2, hsp0, ht]
  simp only [State.setFlags, State.setReg, State.withMem, Regs.set, State.reg, Regs.get]

/-! ### The divide fault (R403) -/

theorem State.divideUnsigned_of_fault {w : Width} {x : BitVec w.bits}
    (h : x.toNat = 0 ∨ 2 ^ w.bits ≤ (s.wideAcc w).toNat / x.toNat) (len : Nat) : s.divideUnsigned w x len = s.divideFault := by
  unfold State.divideUnsigned
  obtain h0 | hq := h
  · exact if_pos h0
  · rw [if_pos hq, ite_self]

theorem State.divideSigned_of_fault {w : Width} {x : BitVec w.bits}
    (h : x.toInt = 0 ∨ fitsSigned w.bits ((s.wideAcc w).toInt.tdiv x.toInt) = false) (len : Nat) :
    s.divideSigned w x len = s.divideFault := by
  unfold State.divideSigned
  obtain h0 | hq := h
  · exact if_pos h0
  · dsimp only
    rw [if_pos hq, ite_self]

theorem exec_aam_zero (s : State) : exec (.aam 0) s = s.divideFault := by
  show execAam 0 s = s.divideFault
  exact if_pos rfl

end Sys2Proof.Machine

open Sys2Proof Sys2Proof.Machine

/-- Settles O19: the pseudocode is the definition, and on an ordinary stack it completes. -/
theorem deliver : Obligations.Deliver := by
  unfold Obligations.Deliver
  refine fun s v => ⟨?_, fun hm hp => deliver_delivered hm hp v⟩
  have hseg : vectorAddr v + 2#20 = BitVec.ofNat 20 (4 * v.toNat + 2) := (BitVec.ofNat_add _ _).symm
  rw [← hseg]
  rfl

/-- Settles O20: `IRET` pops the three words that `deliver` pushed. -/
theorem deliverThenIret : Obligations.DeliverThenIret := by
  unfold Obligations.DeliverThenIret
  intro s v hm hp
  obtain ⟨m, hdeliver, h2, h4, h6, hframe⟩ := State.deliver_of_plainStack hm hp v
  exact ⟨_, s.withMem m, hdeliver, State.interruptReturn_enterVector hp h2 h4 h6 v, rfl, rfl, rfl, hframe⟩

/-- Settles O24: each condition is that of the instruction's test for a fault, made before anything is written. -/
theorem divideFault : Obligations.DivideFault := by
  unfold Obligations.DivideFault
  exact fun s w rm => ⟨fun h => State.divideUnsigned_of_fault h _,
    fun h => State.divideSigned_of_fault (h.imp_right decide_eq_false) _, exec_aam_zero s,
    fun hm hp => deliver_delivered hm hp 0⟩

end

section
/-! PROOFS. The flag instructions (48_io_flags_misc R354 to R360) and `SAHF` (41_data_movement R168). -/

namespace Sys2Proof.Machine

variable {s : State} {i : Instr}

/-- A meaning that sets one flag and falls through. -/
theorem runsTo_setFlag {x : Flag} {b : Bool} (h : exec i s = (s.setFlags (s.flags.set x b)).advance 1) :
    RunsTo i s 1 fun t => t.flags.get x = b ∧ Frame s t [] [x] := by
  have hother : ∀ y, y ∉ [x] → (s.flags.set x b).get y = s.flags.get y := fun y hy => by
    rw [Flags.get_set, if_neg (by simpa using hy)]
  exact runsTo_advance h rfl ⟨Flags.get_set_same _ x b, frame_setFlags hother⟩

/-- `SAHF` takes the flags of the low byte of the image from `AH` and keeps the others (10_state R27). -/
theorem Flags.get_loadLow (f : Flags) (ah : Byte) (x : Flag) :
    (f.loadLow ah).get x = if flagPos x < 8 then ah.getLsbD (flagPos x) else f.get x := by
  rw [Flags.loadLow, Flags.get_unpack, BitVec.getLsbD_or, BitVec.getLsbD_and, Flags.getLsbD_pack_flagPos]
  cases x <;> simp [flagPos]

theorem runsTo_sahf (s : State) :
    RunsTo .sahf s 1 fun t => t.flags = s.flags.loadLow s.AH ∧ Frame s t [] [.cf, .pf, .af, .zf, .sf] := by
  refine runsTo_advance (t := s.setFlags (s.flags.loadLow s.AH)) rfl rfl ⟨rfl, frame_setFlags fun x hx => ?_⟩
  rw [Flags.get_loadLow]
  cases x with
  | cf | pf | af | zf | sf => exact absurd hx (by decide)
  | tf | intf | df | of => rfl

end Sys2Proof.Machine

open Sys2Proof Sys2Proof.Machine

/-- Settles O38: each of the seven sets one flag; `SAHF` unpacks an image with `AH` as its low byte. -/
theorem flagInstructions : Obligations.FlagInstructions := by
  unfold Obligations.FlagInstructions
  refine fun s => ⟨fun i op x b h => ?_, rfl, (runsTo_sahf s).mono ?_⟩
  · simp only [List.mem_cons, Prod.mk.injEq, List.not_mem_nil, or_false] at h
    obtain ⟨rfl, rfl, rfl, rfl⟩ | ⟨rfl, rfl, rfl, rfl⟩ | ⟨rfl, rfl, rfl, rfl⟩ | ⟨rfl, rfl, rfl, rfl⟩ | ⟨rfl, rfl, rfl, rfl⟩ |
      ⟨rfl, rfl, rfl, rfl⟩ | ⟨rfl, rfl, rfl, rfl⟩ := h <;> exact ⟨rfl, runsTo_setFlag rfl⟩
  · rintro t ⟨hf, hframe⟩
    have hget := Flags.get_loadLow s.flags s.AH
    rw [← hf] at hget
    exact ⟨hget .cf, hget .pf, hget .af, hget .zf, hget .sf, hframe⟩

end

section
/-! PROOFS. The decimal and ASCII adjustments (47_bcd R341 to R346). -/

namespace Sys2Proof.Machine

variable {s : State} {i : Instr} {len : Nat}

theorem Frame.setFlags {t : State} {A : List Addr} {f : Flags} {fl : List Flag} (h : Frame s t A [])
    (hf : ∀ x, x ∉ fl → f.get x = t.flags.get x) : Frame s (t.setFlags f) A fl := by
  simpa using h.trans (frame_setFlags hf)

/-! ### `DAA` and `DAS` (R341, R342) -/

theorem lowDigitAdjusts_eq (al : Byte) (af : Bool) : lowDigitAdjusts al af = (decide (9 < al.toNat % 16) || af) := by
  rw [lowDigitAdjusts, toNat_and_lowDigit]

theorem daaValue_eq (al : Byte) (af cf : Bool) :
    daaValue al af cf = al + (if lowDigitAdjusts al af then 0x06 else 0) + (if highDigitAdjusts al cf then 0x60 else 0) := by
  cases hl : lowDigitAdjusts al af <;> cases hh : highDigitAdjusts al cf <;> simp [daaValue, hl, hh]

theorem dasValue_eq (al : Byte) (af cf : Bool) :
    dasValue al af cf = al - (if lowDigitAdjusts al af then 0x06 else 0) - (if highDigitAdjusts al cf then 0x60 else 0) := by
  cases hl : lowDigitAdjusts al af <;> cases hh : highDigitAdjusts al cf <;> simp [dasValue, hl, hh]

theorem dasCarry_eq (al : Byte) (af cf : Bool) :
    dasCarry al af cf = (highDigitAdjusts al cf || lowDigitAdjusts al af && (cf || decide (al.toNat < 6))) := by
  cases hh : highDigitAdjusts al cf <;> simp [dasCarry, hh]

/-- A meaning that sets `AL` and status flags. -/
theorem runsTo_setAL {al : Byte} {f : Flags} (h : exec i s = ((s.setReg8 0 al).setFlags f).advance len)
    (hf : ∀ x, x ∉ statusFlags → f.get x = s.flags.get x) :
    RunsTo i s len fun t => t.AL = al ∧ t.flags = f ∧ Frame s t [regAddr .byte 0] statusFlags :=
  runsTo_advance h rfl ⟨State.readReg_writeReg_same s .byte 0 al, rfl, (frame_writeReg s .byte 0 al).setFlags hf⟩

/-- The three flags of `SetSZP` for `AL`. -/
theorem flagsAre_setSZP {t : State} {al : Byte} {f g : Flags} (hal : t.AL = al) (hg : t.flags = g)
    (hs : g.SF = (f.setSZP al).SF) (hz : g.ZF = (f.setSZP al).ZF) (hp : g.PF = (f.setSZP al).PF) :
    FlagsAre t (f.setSZP t.AL) [.sf, .zf, .pf] := by
  intro x hx _
  rw [hal, hg]
  cases x with
  | sf => exact hs
  | zf => exact hz
  | pf => exact hp
  | cf | af | tf | intf | df | of => exact absurd hx (by decide)

/-- A meaning that adjusts `AL` and sets the flags as `DAA` and `DAS` do. -/
theorem runsTo_decimal {al : Byte} {af cf : Bool}
    (h : exec i s = ((s.setReg8 0 al).setFlags (s.flags.decimal s.draws al af cf)).advance len) :
    RunsTo i s len fun t =>
      t.AL = al ∧ t.flags.AF = af ∧ t.flags.CF = cf ∧ FlagsAre t (s.flags.setSZP t.AL) [.sf, .zf, .pf] ∧
        Frame s t [regAddr .byte 0] statusFlags := by
  refine (runsTo_setAL h (Flags.get_of_not_mem_statusFlags rfl rfl rfl)).mono ?_
  rintro t ⟨hal, hflags, hframe⟩
  exact ⟨hal, by rw [hflags]; rfl, by rw [hflags]; rfl, flagsAre_setSZP hal hflags rfl rfl rfl, hframe⟩

theorem exec_daa (s : State) :
    exec .daa s =
      ((s.setReg8 0 (daaValue s.AL s.flags.AF s.flags.CF)).setFlags
        (s.flags.decimal s.draws (daaValue s.AL s.flags.AF s.flags.CF) (lowDigitAdjusts s.AL s.flags.AF)
          (highDigitAdjusts s.AL s.flags.CF))).advance 1 := rfl

theorem exec_das (s : State) :
    exec .das s =
      ((s.setReg8 0 (dasValue s.AL s.flags.AF s.flags.CF)).setFlags
        (s.flags.decimal s.draws (dasValue s.AL s.flags.AF s.flags.CF) (lowDigitAdjusts s.AL s.flags.AF)
          (dasCarry s.AL s.flags.AF s.flags.CF))).advance 1 := rfl

/-! ### `AAA` and `AAS` (R343, R344) -/

/-- `AL <- AL & 0x0F` as an update of the whole register. -/
theorem withByte_and_lowDigit (x : Word) : withByte false (byteOf false x &&& 0x0F) x = x &&& 0xFF0F := by
  have hmask : x &&& (0xFF0F : Word) = (byteOf true x ++ byteOf false x) &&& (0xFF#8 ++ 0x0F#8) := by
    rw [byteOf_append_byteOf]
    rfl
  rw [hmask, BitVec.and_append, show byteOf true x &&& 0xFF#8 = byteOf true x from BitVec.and_allOnes]
  rfl

/-- `AAA` and `AAS` with the adjusted value of `AX`. -/
theorem runsTo_asciiAdjust {v : Word} {low : Bool} (h : exec i s = s.asciiAdjust v) (hlow : lowDigitAdjusts s.AL s.flags.AF = low) :
    RunsTo i s 1 fun t =>
      t.reg .ax = (if low then v else s.reg .ax) &&& 0xFF0F ∧ t.flags.AF = low ∧ t.flags.CF = low ∧
        Frame s t Reg.ax.bytes statusFlags := by
  have hax : s.asciiAdjust v =
      ((s.setReg .ax ((if low then v else s.reg .ax) &&& 0xFF0F)).setFlags (s.flags.asciiAdjust s.draws low)).advance 1 := by
    rw [← withByte_and_lowDigit, State.asciiAdjust, hlow]
    cases low with
    | false => rfl
    | true => exact congrArg (fun u : State => (u.setFlags _).advance 1) (State.setReg_setReg s .ax v _)
  exact runsTo_advance (h.trans hax) rfl ⟨State.reg_setReg_same s .ax _, rfl, rfl,
    (frame_setReg_bytes s .ax _).setFlags (Flags.get_of_not_mem_statusFlags rfl rfl rfl)⟩

theorem exec_aaa (s : State) : exec .aaa s = s.asciiAdjust (s.reg .ax + 0x0106) := rfl

theorem exec_aas (s : State) : exec .aas s = s.asciiAdjust (s.reg .ax - 0x0106) := rfl

/-! ### `AAM` and `AAD` (R345, R346) -/

theorem State.setReg8_high_low (s : State) (hi lo : Byte) : (s.setReg8 4 hi).setReg8 0 lo = s.setWideAcc .byte hi lo := by
  show (s.setReg .ax (withByte true hi _)).setReg .ax (byteOf true ((s.setReg .ax (withByte true hi _)).reg .ax) ++ lo) =
    s.setReg .ax (hi ++ lo)
  rw [State.setReg_setReg, State.reg_setReg_same, byteOf_withByte]

theorem State.setReg8_low_high (s : State) (hi lo : Byte) : (s.setReg8 0 lo).setReg8 4 hi = s.setWideAcc .byte hi lo := by
  show (s.setReg .ax (withByte false lo _)).setReg .ax (hi ++ byteOf false ((s.setReg .ax (withByte false lo _)).reg .ax)) =
    s.setReg .ax (hi ++ lo)
  rw [State.setReg_setReg, State.reg_setReg_same, byteOf_withByte]

/-- A meaning that sets `AH` and `AL`, and the flags as `AAM` and `AAD` do. -/
theorem runsTo_asciiBase {u : State} {hi lo : Byte} (hu : u = s.setWideAcc .byte hi lo)
    (h : exec i s = (u.setFlags (s.flags.asciiBase s.draws u.AL)).advance len) :
    RunsTo i s len fun t =>
      t.AH = hi ∧ t.AL = lo ∧ FlagsAre t (s.flags.setSZP t.AL) [.sf, .zf, .pf] ∧ Frame s t Reg.ax.bytes statusFlags := by
  have hul : u.AL = lo := by
    rw [hu]
    exact s.accLow_setWideAcc .byte hi lo
  rw [hul, hu] at h
  refine (runsTo_setWideAcc h (Flags.get_of_not_mem_statusFlags rfl rfl rfl)).mono ?_
  rintro t ⟨hhi, hlo, hflags, hframe⟩
  exact ⟨hhi, hlo, flagsAre_setSZP hlo hflags rfl rfl rfl, hframe⟩

theorem runsTo_aam {base : Byte} (hb : base ≠ 0) (s : State) :
    RunsTo (.aam base) s 2 fun t =>
      t.AH = BitVec.ofNat 8 (s.AL.toNat / base.toNat) ∧ t.AL = BitVec.ofNat 8 (s.AL.toNat % base.toNat) ∧
        FlagsAre t (s.flags.setSZP t.AL) [.sf, .zf, .pf] ∧ Frame s t Reg.ax.bytes statusFlags := by
  exact runsTo_asciiBase (s.setReg8_high_low _ _) (if_neg hb)

theorem runsTo_aad (base : Byte) (s : State) :
    RunsTo (.aad base) s 2 fun t =>
      t.AH = 0 ∧ t.AL = s.AL + s.AH * base ∧
        FlagsAre t (s.flags.setSZP t.AL) [.sf, .zf, .pf] ∧ Frame s t Reg.ax.bytes statusFlags := by
  exact runsTo_asciiBase (s.setReg8_low_high _ _) rfl

end Sys2Proof.Machine

open Sys2Proof Sys2Proof.Machine

/-- Settles O50: the tests of the two digits are those of the pseudocode, and each adjustment is one update of `AL` or `AX`. -/
theorem decimalAdjustments : Obligations.DecimalAdjustments := by
  unfold Obligations.DecimalAdjustments
  rintro s base low high hl hh
  have hlow : lowDigitAdjusts s.AL s.flags.AF = low := (lowDigitAdjusts_eq _ _).trans hl.symm
  have hhigh : highDigitAdjusts s.AL s.flags.CF = high := hh.symm
  refine ⟨?daa, ?das, ?aaa, ?aas, fun hb => (runsTo_aam hb s).mono ?aam, (runsTo_aad base s).mono ?aad⟩
  case daa =>
    have h := runsTo_decimal (exec_daa s)
    rwa [daaValue_eq, hlow, hhigh] at h
  case das =>
    have h := runsTo_decimal (exec_das s)
    rwa [dasValue_eq, dasCarry_eq, hlow, hhigh] at h
  case aaa =>
    have h := runsTo_asciiAdjust (exec_aaa s) hlow
    have hadd : (if low then s.reg .ax + 0x0106 else s.reg .ax) = s.reg .ax + if low then 0x0106 else 0 := by
      cases low <;> simp
    rwa [hadd] at h
  case aas =>
    have h := runsTo_asciiAdjust (exec_aas s) hlow
    have hsub : (if low then s.reg .ax - 0x0106 else s.reg .ax) = s.reg .ax - if low then 0x0106 else 0 := by
      cases low <;> simp
    rwa [hsub] at h
  case aam =>
    rintro t ⟨hah, hal, hflags, hframe⟩
    have hle := Nat.div_le_self s.AL.toNat base.toNat
    have hmod := Nat.mod_le s.AL.toNat base.toNat
    have hlt := s.AL.isLt
    refine ⟨?_, ?_, hflags, hframe⟩
    · rw [show t.reg8 4 = _ from hah, BitVec.toNat_ofNat, Nat.mod_eq_of_lt (by omega)]
    · rw [hal, BitVec.toNat_ofNat, Nat.mod_eq_of_lt (by omega)]
  case aad =>
    rintro t ⟨hah, hal, hflags, hframe⟩
    refine ⟨?_, hah, hflags, hframe⟩
    rw [hal, BitVec.toNat_add, BitVec.toNat_mul, Nat.add_mod_mod]
end

section
/-! PROOFS. `IN` and `OUT` where no port of the access is special (48_io_flags_misc R350 to R353, 10_state R30): the ports are byte
cells, and `PortDevice` is a draw unless it acts everywhere. -/

namespace Sys2Proof.Machine

variable {s : State} {w : Width} {p q : Word}

/-- At plain ports `PortDevice` acts only if it acts everywhere (20_memory R75). -/
theorem State.deviceActsAt_plain (h : ∀ q ∈ portsOf w p, q ∉ Config.specialPorts) (he : s.params.deviceEverywhere = false) :
    s.deviceActsAt w p = false := by
  rw [State.deviceActsAt, he, reachesSpecial_eq_false h]
  rfl

/-! ### `IN` -/

theorem State.readAcc_portRead (h : ∀ q ∈ portsOf w p, q ∉ Config.specialPorts) :
    (s.portRead w p).readReg w 0 = s.portsAt w p :=
  (State.readReg_writeReg_same _ w 0 _).trans (State.portValue_deviceCalled h)

/-- Where `PortDevice` does not act, `IN` changes the accumulator alone. -/
theorem frame_portRead_of_not_acts (h : s.deviceActsAt w p = false) :
    FrameButDraws s (s.portRead w p) (bytesAt w (regAddr w 0)) [] := by
  have hframe := frame_writeReg s w 0 ((s.deviceCalled w p none).portValue w p)
  unfold FrameButDraws State.portRead
  rw [State.deviceCalled_of_not_acts h] at hframe ⊢
  cases w <;> exact hframe

/-! ### `OUT` -/

theorem State.putPort_plain_specialPorts (h : ∀ q ∈ portsOf w p, q ∉ Config.specialPorts) (x : BitVec w.bits) :
    (s.putPort w p x).specialPorts = s.specialPorts := by
  have hput (u : State) {r : Word} (hr : r ∈ portsOf w p) (b : Byte) : (u.setPort r b).specialPorts = u.specialPorts := by
    rw [State.setPort_specialPorts, isSpecialPort_eq_false.2 (h r hr)]
    rfl
  cases w with
  | byte => exact hput s (by simp [portsOf]) x
  | word => exact (hput _ (by simp [portsOf]) _).trans (hput s (by simp [portsOf]) _)

/-- A store to plain ports changes `ports` alone. -/
theorem State.putPort_plain (h : ∀ q ∈ portsOf w p, q ∉ Config.specialPorts) (x : BitVec w.bits) :
    s.putPort w p x = { s with ports := (s.putPort w p x).ports } := by
  rw [← State.putPort_plain_specialPorts h x]
  cases w <;> rfl

theorem State.get_setPort_ports_other (hs : s.ports.wf portCount = true) (hq : q ≠ p) (b : Byte) :
    (s.setPort p b).ports.get q.toNat = s.ports.get q.toNat := by
  rw [State.setPort_ports]
  split
  · rfl
  · exact Memory.get_set_other (lo := 0) hs fun e => hq (BitVec.eq_of_toNat_eq e)

theorem State.get_putPort_ports_other (hs : s.ports.wf portCount = true) (hq : q ∉ portsOf w p) (x : BitVec w.bits) :
    (s.putPort w p x).ports.get q.toNat = s.ports.get q.toNat := by
  cases w with
  | byte => exact State.get_setPort_ports_other hs (by simpa [portsOf] using hq) x
  | word =>
    simp only [portsOf, List.mem_cons, List.not_mem_nil, or_false, not_or] at hq
    exact (State.get_setPort_ports_other (State.setPort_ports_wf hs) hq.2 _).trans (State.get_setPort_ports_other hs hq.1 _)

theorem State.portsAt_portWrite (hs : s.ports.wf portCount = true) (h : ∀ q ∈ portsOf w p, q ∉ Config.specialPorts)
    (x : BitVec w.bits) : (s.portWrite w p x).portsAt w p = x := by
  have hvalue : (s.portWrite w p x).portsAt w p = (s.portWrite w p x).portValue w p := by cases w <;> rfl
  exact hvalue.trans ((State.portValue_deviceCalled h).trans (State.portsAt_putPort_plain hs h))

/-- Where `PortDevice` does not act, `OUT` to plain ports changes them alone. -/
theorem frame_portWrite_of_not_acts (h : ∀ q ∈ portsOf w p, q ∉ Config.specialPorts) (ha : s.deviceActsAt w p = false)
    (x : BitVec w.bits) : FrameButDraws s { s.portWrite w p x with ports := s.ports } [] [] := by
  have hacts : (s.putPort w p x).deviceActsAt w p = false := by
    rw [State.putPort_plain h]
    exact ha
  have hwrite : s.portWrite w p x = { s.nextDraw with ports := (s.putPort w p x).ports } := by
    rw [State.portWrite, State.deviceCalled_of_not_acts hacts, State.putPort_plain h]
    rfl
  unfold FrameButDraws
  rw [hwrite]
  exact Frame.refl s

end Sys2Proof.Machine

open Sys2Proof Sys2Proof.Machine

/-- Settles O57: what is stored at plain ports is read there, and where `PortDevice` does not act nothing else changes. -/
theorem plainPorts : Obligations.PlainPorts := by
  unfold Obligations.PlainPorts
  refine fun s w port p hm hs hplain =>
    ⟨fun i len hi => runsTo_in hi ?input ?inputIP, fun i len hi => runsTo_out hi ?output ?outputIP⟩
  case input =>
    exact ⟨State.readAcc_portRead hplain, s.portRead_ports w p, s.portRead_specialPorts w p,
      fun he => frame_portRead_of_not_acts (State.deviceActsAt_plain hplain he), frame_portRead hm⟩
  case inputIP => cases w <;> exact fun _ _ h => h
  case output =>
    exact ⟨State.portsAt_portWrite hs hplain _, fun q hq => State.get_putPort_ports_other hs hq _,
      State.putPort_plain_specialPorts hplain _, State.putPort_ports_wf hs,
      fun he => frame_portWrite_of_not_acts hplain (State.deviceActsAt_plain hplain he) _, frame_portWrite hm⟩
  case outputIP => cases w <;> exact fun _ _ h => h

end

section
/-! PROOFS. The `0F` hooks (48_io_flags_misc R365 to R368): a call of the host, then stores to ordinary memory,
which all succeed. -/

namespace Sys2Proof.Machine

variable {s t : State} {a : Addr}

/-! ### The call -/

/-- After a hook was called once, and then only the bytes in `A` changed. -/
theorem hook_of_frame {c : HostCall} {A : List Addr} {fl : List Flag} (h : Frame (s.callHook c) t A fl) :
    t.hostCalls = s.hostCalls ++ [c] ∧ Frame s { t with hostCalls := s.hostCalls } A fl := by
  obtain ⟨hbyte, hreg, hflag, h1, h2, h3, h4, h5, h6, h7, h8, h9, h10, h11, h12, h13, hcalls⟩ := h
  exact ⟨hcalls, hbyte, hreg, hflag, h1, h2, h3, h4, h5, h6, h7, h8, h9, h10, h11, h12, h13, rfl⟩

theorem State.length_bufferBytes (s : State) (a : Addr) (n : Nat) : (s.bufferBytes a n).length = n := by
  simp [State.bufferBytes]

theorem State.getElem?_bufferBytes (s : State) (a : Addr) {n k : Nat} (hk : k < n) :
    (s.bufferBytes a n)[k]? = some (s.readByte (a + BitVec.ofNat 20 k)) := by
  simp [State.bufferBytes, hk]

/-! ### The stores -/

theorem bytesFrom_subset (a : Addr) {k n : Nat} (h : k ≤ n) : bytesFrom a k ⊆ bytesFrom a n := by
  intro x hx
  obtain ⟨j, hj, e⟩ := mem_bytesFrom.1 hx
  exact mem_bytesFrom.2 ⟨j, by omega, e⟩

/-- Stores to ordinary memory, one after another, are never refused. -/
theorem State.writeBytes_plain_from (f : Nat → Byte) (n : Nat) (s : State) (i : Nat)
    (hp : ∀ x ∈ bytesFrom (a + BitVec.ofNat 20 i) n, cellAt x = .plain) :
    s.writeBytes a f i n = .next (s.putBytes (a + BitVec.ofNat 20 i) ((List.range' i n).map f)) := by
  induction n generalizing s i with
  | zero => rfl
  | succ n ih =>
    have hnext : a + BitVec.ofNat 20 (i + 1) = a + BitVec.ofNat 20 i + 1#20 := by
      rw [BitVec.ofNat_add, BitVec.add_assoc]
    rw [bytesFrom_succ, ← hnext] at hp
    have hfirst : canStore .byte (a + BitVec.ofNat 20 i) (f i) = true := canStoreByte_plain (hp _ List.mem_cons_self)
    rw [State.writeBytes, State.writeMem_of_canStore hfirst, andThen_next,
      ih _ _ fun x hx => hp x (by simp [hx]), hnext]
    rfl

theorem State.writeBytes_plain (s : State) (f : Nat → Byte) {n : Nat} (hp : ∀ x ∈ bytesFrom a n, cellAt x = .plain) :
    s.writeBytes a f 0 n = .next (s.putBytes a ((List.range n).map f)) := by
  have h := State.writeBytes_plain_from (a := a) f n s 0
  rw [BitVec.add_zero, ← List.range_eq_range'] at h
  exact h hp

theorem frame_putBytes_map (s : State) (a : Addr) (f : Nat → Byte) (n : Nat) (hm : s.mem.wf memSize = true) :
    Frame s (s.putBytes a ((List.range n).map f)) (bytesFrom a n) [] := by
  have h := frame_putBytes (s := s) (a := a) (bs := (List.range n).map f) hm
  rwa [List.length_map, List.length_range] at h

/-! ### The hooks -/

/-- The call of a disk write. -/
def State.diskWriteCall (s : State) : HostCall :=
  .disk (s.reg8 2) .write s.hookBuffer s.diskOffset (s.reg .ax) (s.bufferBytes s.hookBuffer (s.reg .ax).toNat)

/-- The call of a disk read. -/
def State.diskReadCall (s : State) : HostCall := .disk (s.reg8 2) .read s.hookBuffer s.diskOffset (s.reg .ax) []

theorem exec_diskWrite (s : State) :
    exec .diskWrite s = ((s.callHook s.diskWriteCall).setReg8 0 (Config.diskResult s.draws)).advance 2 := rfl

theorem exec_diskRead (s : State) :
    exec .diskRead s =
      andThen ((s.callHook s.diskReadCall).writeBytes s.hookBuffer (Config.diskByte s.draws) 0
        (diskTransferred (s.reg .ax) s.draws)) fun t => (t.setReg8 0 (Config.diskResult s.draws)).advance 2 := rfl

theorem runsTo_diskWrite (s : State) :
    RunsTo .diskWrite s 2 fun t =>
      t.hostCalls = s.hostCalls ++ [s.diskWriteCall] ∧
      Frame s { t with hostCalls := s.hostCalls } [regAddr .byte 0] [] := by
  exact runsTo_advance (exec_diskWrite s) rfl (hook_of_frame (frame_writeReg _ .byte 0 _))

theorem runsTo_diskRead (hm : s.mem.wf memSize = true)
    (hp : ∀ x ∈ bytesFrom s.hookBuffer (s.reg .ax).toNat, cellAt x = .plain) :
    RunsTo .diskRead s 2 fun t =>
      t.hostCalls = s.hostCalls ++ [s.diskReadCall] ∧
      Frame s { t with hostCalls := s.hostCalls }
        (bytesFrom s.hookBuffer (diskTransferred (s.reg .ax) s.draws) ++ [regAddr .byte 0]) [] := by
  have hk : diskTransferred (s.reg .ax) s.draws ≤ (s.reg .ax).toNat := Nat.min_le_left _ _
  have hstore := (s.callHook s.diskReadCall).writeBytes_plain (Config.diskByte s.draws)
    fun x hx => hp x (bytesFrom_subset _ hk hx)
  have hframe := frame_putBytes_map (s.callHook s.diskReadCall) s.hookBuffer (Config.diskByte s.draws)
    (diskTransferred (s.reg .ax) s.draws) hm
  have hIP := State.putBytes_IP (s.callHook s.diskReadCall) s.hookBuffer
    ((List.range (diskTransferred (s.reg .ax) s.draws)).map (Config.diskByte s.draws))
  have hexec := exec_diskRead s
  rw [hstore, andThen_next] at hexec
  exact runsTo_advance hexec hIP (hook_of_frame (hframe.trans (frame_writeReg _ .byte 0 _)))

/-- Bytes 32 to 35 of the clock record are 0 (60_exceptions R422). -/
theorem clockRecord_dst (draw : Nat) {k : Nat} (h : 32 ≤ k) (h' : k < 36) : clockRecord draw k = 0 := if_pos ⟨h, h'⟩

theorem runsTo_getTime (hm : s.mem.wf memSize = true) (hp : ∀ x ∈ bytesFrom s.hookBuffer 40, cellAt x = .plain)
    (hms : ∀ x ∈ bytesFrom s.params.rtcMsAddr s.params.rtcMsLen, cellAt x = .plain) :
    RunsTo .getTime s 2 fun t =>
      (∀ k < 40, s.hookBuffer + BitVec.ofNat 20 k ∉ bytesFrom s.params.rtcMsAddr s.params.rtcMsLen →
        t.readByte (s.hookBuffer + BitVec.ofNat 20 k) = clockRecord s.draws k) ∧
      t.hostCalls = s.hostCalls ++ [.clock] ∧
      Frame s { t with hostCalls := s.hostCalls }
        (bytesFrom s.hookBuffer 40 ++ bytesFrom s.params.rtcMsAddr s.params.rtcMsLen) [] := by
  have hrecord := State.writeBytes_plain (s.callHook .clock) (clockRecord s.draws) hp
  generalize hu : (s.callHook .clock).putBytes s.hookBuffer ((List.range 40).map (clockRecord s.draws)) = u at hrecord
  have hcounter := State.writeBytes_plain u (Config.clockMsByte s.draws) hms
  have hexec : exec .getTime s =
      (u.putBytes s.params.rtcMsAddr ((List.range s.params.rtcMsLen).map (Config.clockMsByte s.draws))).advance 2 := by
    show execGetTime s = _
    rw [execGetTime, hrecord, andThen_next, hcounter, andThen_next]
  have hframe := frame_putBytes_map (s.callHook .clock) s.hookBuffer (clockRecord s.draws) 40 hm
  have hwf : u.mem.wf memSize = true := hu ▸ State.putBytes_mem_wf hm
  have hframe' := frame_putBytes_map u s.params.rtcMsAddr (Config.clockMsByte s.draws) s.params.rtcMsLen hwf
  rw [hu] at hframe
  refine runsTo_advance hexec ?_ ⟨fun k hk hn => ?_, hook_of_frame (hframe.trans hframe')⟩
  · rw [State.putBytes_IP, ← hu, State.putBytes_IP]
    rfl
  · rw [hframe'.1 _ hn (by simp), ← hu]
    exact State.readByte_putBytes (s := s.callHook .clock) hm (by simp) (by simpa using hp) (by simp [hk])

end Sys2Proof.Machine

open Sys2Proof Sys2Proof.Machine

/-- Settles O59: each calls the host once; the two that store do so in ordinary memory, where no store is refused. -/
theorem hooks : Obligations.Hooks := by
  unfold Obligations.Hooks
  refine fun s => ⟨jumpsTo_setIP (State.advance_eq (s.callHook (.charOut s.AL)) 2), (runsTo_diskWrite s).mono ?diskWrite,
    fun hm => ⟨fun hp => (runsTo_diskRead hm hp).mono ?diskRead, fun hp => ?getTime⟩⟩
  case diskWrite =>
    exact fun t ⟨hcalls, hframe⟩ =>
      ⟨⟨_, hcalls, s.length_bufferBytes _ _, fun k hk => s.getElem?_bufferBytes _ hk⟩, hframe⟩
  case diskRead => exact fun t ⟨hcalls, hframe⟩ => ⟨hcalls, _, Nat.min_le_left _ _, hframe⟩
  case getTime =>
    rw [List.forall_mem_append] at hp
    refine (runsTo_getTime hm hp.1 hp.2).mono ?_
    rintro t ⟨hrecord, hcalls, hframe⟩
    exact ⟨hcalls, fun k h h' hn => (hrecord k (by omega) hn).trans (clockRecord_dst s.draws h h'), hframe⟩

end
